-- ==== Sys2Proof/Word.lean ====
section
/-! DEFINITION. The byte the command line and the spread lines carry (spec 9.1, 11.1). -/

namespace Sys2Proof

/-- One data byte of a character (R165) or of a line frame (R197). -/
abbrev Byte := BitVec 8

/-- One stored receiver sample, 24-bit signed (R6). -/
abbrev Sample := BitVec 24

/-- One reference sample, 16-bit signed (R43). -/
abbrev RefSample := BitVec 16

end Sys2Proof
end

