-- ==== Sys2Proof/Syntax.lean ====
section
/-! DEFINITION. The commands of the LC480: one constructor for each row of spec/opcode_table.json. -/

namespace Sys2Proof

/-- How a request frame was addressed (R167). -/
inductive AddressKind where
  /-- The frame began in SELECTED-OWN. -/
  | addressed
  /-- The frame began in SELECTED-ALL. -/
  | broadcast
  deriving DecidableEq, Repr

/-- One whole event at the part. The request rows are the TAKING of that request (R172, R173): their operands are the
payload bytes of R195 and, where R170 lets the request be broadcast, its address kind (log entry 4). -/
inductive Instr where
  /-- CHMAP (R2). -/
  | chmap (ak : AddressKind) (payload : List Byte)
  /-- CHSTATE (R4). -/
  | chstate (ak : AddressKind) (payload : List Byte)
  /-- PROBE (R12), addressed only. -/
  | probe (payload : List Byte)
  /-- ACQSET (R14). -/
  | acqset (ak : AddressKind) (payload : List Byte)
  /-- LNACT (R24). -/
  | lnact (ak : AddressKind) (payload : List Byte)
  /-- LNDEACT (R35). -/
  | lndeact (ak : AddressKind) (payload : List Byte)
  /-- LNCONF (R37). -/
  | lnconf (ak : AddressKind) (payload : List Byte)
  /-- LNRESET (R38). -/
  | lnreset (ak : AddressKind) (payload : List Byte)
  /-- LNPOLICY (R39). -/
  | lnpolicy (ak : AddressKind) (payload : List Byte)
  /-- REFOPEN (R45). -/
  | refopen (ak : AddressKind) (payload : List Byte)
  /-- REFDATA (R46). -/
  | refdata (ak : AddressKind) (payload : List Byte)
  /-- REFCLOSE (R48). -/
  | refclose (ak : AddressKind) (payload : List Byte)
  /-- REFCLEAR (R49). -/
  | refclear (ak : AddressKind) (payload : List Byte)
  /-- SWANN (R61). -/
  | swann (ak : AddressKind) (payload : List Byte)
  /-- SWCANCEL (R76). -/
  | swcancel (ak : AddressKind) (payload : List Byte)
  /-- SWLIST (R80), addressed only. -/
  | swlist (payload : List Byte)
  /-- QCPOLICY (R102). -/
  | qcpolicy (ak : AddressKind) (payload : List Byte)
  /-- SWQC (R108). -/
  | swqc (ak : AddressKind) (payload : List Byte)
  /-- STKOPEN (R122). -/
  | stkopen (ak : AddressKind) (payload : List Byte)
  /-- STKCLOSE (R137). -/
  | stkclose (ak : AddressKind) (payload : List Byte)
  /-- STKDROP (R140). -/
  | stkdrop (ak : AddressKind) (payload : List Byte)
  /-- STKINFO (R142), addressed only. -/
  | stkinfo (payload : List Byte)
  /-- OQFETCH (R160), addressed only. -/
  | oqfetch (payload : List Byte)
  /-- OQREL (R161), addressed only. -/
  | oqrel (payload : List Byte)
  /-- OQSIZE (R162). -/
  | oqsize (ak : AddressKind) (payload : List Byte)
  /-- STATUS (R177), addressed only. -/
  | status (payload : List Byte)
  /-- IDENT (R178), addressed only. -/
  | ident (payload : List Byte)
  /-- RSTFULL (R179). -/
  | rstfull (ak : AddressKind) (payload : List Byte)
  /-- RSTENG (R180). -/
  | rsteng (ak : AddressKind) (payload : List Byte)
  /-- NTREAD (R188), addressed only. -/
  | ntread (payload : List Byte)
  /-- NTMASK (R190). -/
  | ntmask (ak : AddressKind) (payload : List Byte)
  /-- UNKNOWN_REQUEST (R173): the kind byte names no request of the part. -/
  | unknownRequest (ak : AddressKind) (kind : Byte) (payload : List Byte)
  /-- ADDRESS_CHARACTER (R167): a marked character with its data byte. -/
  | addressCharacter (value : Byte)
  /-- CHARACTER_ERROR (R165): a character without its stop bit. -/
  | characterError
  /-- INCONSISTENT_LENGTH (R168): the two length bytes, low byte first. -/
  | inconsistentLength (lo hi : Byte)
  /-- REQUEST_FRAME (R170): the unmarked characters of the frame, in order (log entry 7). -/
  | requestFrame (chars : List Byte)
  /-- ANSWER_COMPLETION (R174). -/
  | answerCompletion
  /-- POWER_ON_RESET (R181) with the value of the six address straps (R166). -/
  | powerOnReset (straps : BitVec 6)
  /-- INIT_INTERVAL_END (R182). -/
  | initIntervalEnd
  /-- LINE_FRAME (R21): the bytes received from the start code to the end the signalling marks (log entry 8). -/
  | lineFrame (port : Fin 4) (bytes : List Byte)
  /-- FRAME_ABSENCE (R22): the absence timer of the port expires. -/
  | frameAbsence (port : Fin 4)
  /-- WAKE_TIMER_EXPIRY (R26). -/
  | wakeTimerExpiry (port : Fin 4)
  /-- SLIP_TIMER_EXPIRY (R31). -/
  | slipTimerExpiry (port : Fin 4)
  /-- RETRY_TIMER_EXPIRY (R33). -/
  | retryTimerExpiry (port : Fin 4)
  /-- DRAIN_SILENCE_TIMER_EXPIRY (R36). -/
  | drainSilenceTimerExpiry (port : Fin 4)
  /-- DRAIN_LIMIT_TIMER_EXPIRY (R36). -/
  | drainLimitTimerExpiry (port : Fin 4)
  /-- GRANT (R84, R85): the arbiter itself chooses the entry and the lane. -/
  | grant
  /-- LANE_COMPLETION (R95). -/
  | laneCompletion (lane : Fin 4)
  /-- QC_WAIT_EXPIRY (R112) of the listed entry with the sweep tag. -/
  | qcWaitExpiry (tag : Nat)
  /-- FINALIZE_COMPLETION (R155) of the stack with the VP tag. -/
  | finalizeCompletion (vp : Nat)
  deriving DecidableEq, Repr

end Sys2Proof
end

