-- ==== Sys2Proof/Decode.lean ====
section
/-! DEFINITION. The command a table word spells. No row of spec/opcode_table.json gives bits (its "fields" are all empty), so no word spells a command (log entry 2). -/

namespace Sys2Proof

/-- The table gives no row any bits: no word is read as a command. -/
def decodeTableWord (_nbits _w : Nat) : Option Instr := none

end Sys2Proof
end

