-- ==== Sys2Proof/Config.lean ====
section
/-! DEFINITION. The fixed capacities of the LC480. The spec fixes every one of them (R178 reports most), and it leaves no result of a command undefined, so there is no free value here. -/

namespace Sys2Proof.Config

/-- Ring positions of a port (R6). -/
@[simp] abbrev ringDepth : Nat := 65536
/-- One more than the largest sample index (4.5, R56). -/
@[simp] abbrev indexLimit : Nat := 281474976710656
/-- Channels of the part (4.7). -/
@[simp] abbrev channels : Nat := 480
/-- Slots of one port (4.7). -/
@[simp] abbrev portSlots : Nat := 120
/-- Greatest number of sweep entries (R56). -/
@[simp] abbrev sweepLimit : Nat := 32
/-- Greatest number of stacks (R118). -/
@[simp] abbrev stackLimit : Nat := 8
/-- Greatest number of notices held (R187). -/
@[simp] abbrev noticeLimit : Nat := 64
/-- Greatest number of requests in the input queue (R171). -/
@[simp] abbrev inputLimit : Nat := 4
/-- Capacity of the output queue in bytes (R145). -/
@[simp] abbrev outputCapacity : Nat := 67108864
/-- Reach of SWANN ahead of the spread front (R59, condition 12). -/
@[simp] abbrev futureReach : Nat := 4194304
/-- Largest count of the length field of a request frame (R168). -/
@[simp] abbrev lengthLimit : Nat := 1025
/-- Largest value of the slip count and of retries used (R19). -/
@[simp] abbrev countLimit : Nat := 65535
/-- Largest record number (R146). -/
@[simp] abbrev recordLimit : Nat := 4294967295
/-- Wake timer, in milliseconds (2.1.1). -/
@[simp] abbrev wakeMs : Nat := 2000
/-- Drain silence timer, in milliseconds (2.1.1). -/
@[simp] abbrev silenceMs : Nat := 20
/-- Drain limit timer, in milliseconds (2.1.1). -/
@[simp] abbrev drainLimitMs : Nat := 40

end Sys2Proof.Config
end

