-- ==== Sys2Proof/Machine/State.lean ====
section
/-! DEFINITION. Everything the spec says the LC480 holds, as plain data, and its value after power-on reset. -/

namespace Sys2Proof.Machine

/-- No constructor: no event of the spec stops the part (INVENTORY, '## Faults'). -/
inductive Fault where
  deriving DecidableEq, Repr

/-- Why the model would not run a command. -/
inductive Refusal where
  /-- Raised by exec alone, for a row that has no meaning yet (safe: nothing is claimed of it). No arm raises it now. -/
  | notModelled (mnemonic : String)
  deriving DecidableEq, Repr

/-! ### Channel table and sample interval (chapter 1) -/

/-- Sensor component of a channel (R1). -/
inductive Component where
  | z | x | y
  deriving DecidableEq, Repr

/-- Polarity of a channel (R1). -/
inductive Polarity where
  | normal | reversed
  deriving DecidableEq, Repr

/-- State of a channel (R1). -/
inductive ChannelState where
  | unmapped | live | dead
  deriving DecidableEq, Repr

/-- One entry of the channel table (R1). -/
structure ChannelEntry where
  station : Nat
  line : Nat
  component : Component
  polarity : Polarity
  state : ChannelState
  deriving DecidableEq, Repr

/-- The sample interval Δ: 0.25, 0.5, 1, 2 or 4 ms (R14). -/
inductive SampleInterval where
  | quarter | half | one | two | four
  deriving DecidableEq, Repr

/-! ### Ports and the sample ring (chapters 1 and 2) -/

/-- A ring position that is not EMPTY: the index tag and the samples of the slots below the slot count, which is their
number (R6; log entry 12). -/
structure RingCell where
  tag : Nat
  samples : List Sample
  deriving DecidableEq, Repr

/-- The ring of one port: its positions that are not EMPTY, in strictly rising order (R6). -/
abbrev Ring := List (Nat × RingCell)

/-- Activation state of a port (R19). -/
inductive PortState where
  | off | waking | locked | slipped | draining | parked | retryWait | fault
  deriving DecidableEq, Repr

/-- What a port does when a fault condition is met (2.5). -/
inductive FaultMode where
  | latch | retry | report
  deriving DecidableEq, Repr

/-- The cause of fault handling (2.5). -/
inductive FaultCause where
  | noWake | slipCount | slipTime
  deriving DecidableEq, Repr

/-- Line policy of a port, times in milliseconds; a retry limit of none is UNLIMITED (R39). -/
structure LinePolicy where
  slipLimit : Nat
  slipThreshold : Nat
  faultMode : FaultMode
  retryWait : Nat
  retryLimit : Option Nat
  deriving DecidableEq, Repr

/-- A timer: stopped, or running with the milliseconds it was last started with (R19; log entry 6). -/
abbrev Timer := Option Nat

/-- One spread line port (R19), with its front and its ring (R6, R8) and the interval latched at its last entry to WAKING
(R22; log entry 11). -/
structure Port where
  state : PortState
  slipCount : Nat
  retriesUsed : Nat
  candidate : Option Nat
  chain : Bool
  wakeTimer : Timer
  absenceTimer : Timer
  slipTimer : Timer
  retryTimer : Timer
  silenceTimer : Timer
  drainTimer : Timer
  policy : LinePolicy
  wakeInterval : SampleInterval
  front : Option Nat
  ring : Ring
  deriving DecidableEq, Repr

/-! ### Reference slots (chapter 3) -/

/-- State of a reference slot (R43). -/
inductive SlotState where
  | empty | loading | ready
  deriving DecidableEq, Repr

/-- One reference slot (R43); the loaded count is the number of samples held. -/
structure RefSlot where
  state : SlotState
  declared : Option Nat
  samples : List RefSample
  useCount : Nat
  deriving DecidableEq, Repr

/-! ### Sweep list (chapter 4) -/

/-- The reference of a sweep (R56). -/
inductive Reference where
  | slot (i : Fin 8)
  | pilot (channel : Fin 480) (shift : Nat)
  deriving DecidableEq, Repr

/-- State of a sweep entry (R56). -/
inductive SweepState where
  | waiting | capturing | ready | correlating | qcWait
  deriving DecidableEq, Repr

/-- Verdict of a quality report (R106). -/
inductive Verdict where
  | pass | note | reject | retry
  deriving DecidableEq, Repr

/-- An evaluated quality report (R69). -/
structure QcRecord where
  phase : Nat
  distortion : Nat
  force : Nat
  verdict : Verdict
  deriving DecidableEq, Repr

/-- One entry of the sweep list (R56). -/
structure SweepEntry where
  tag : Nat
  vp : Nat
  number : Nat
  start : Nat
  length : Nat
  reference : Reference
  windowEnd : Nat
  state : SweepState
  qc : Option QcRecord
  lane : Option (Fin 4)
  qcTimer : Timer
  deriving DecidableEq, Repr

/-- Why a sweep was aborted (R73). -/
inductive AbortCause where
  | cancelled | overrun | noPilot | rejected | qcTimeout | discarded
  deriving DecidableEq, Repr

/-! ### Correlation lanes (chapter 5) -/

/-- State of a lane (R83). -/
inductive LaneState where
  | idle | correlating | qcWait
  deriving DecidableEq, Repr

/-- What a stack makes of absent samples (R88). -/
inductive GapPolicy where
  | zero | drop
  deriving DecidableEq, Repr

/-- The parameters a lane copies at the grant (R85). -/
structure JobParams where
  start : Nat
  length : Nat
  windowEnd : Nat
  listen : Nat
  shift : Nat
  divWindow : Nat
  gap : GapPolicy
  deriving DecidableEq, Repr

/-- One channel of the channel snapshot (R86). -/
structure SnapshotEntry where
  state : ChannelState
  polarity : Polarity
  deriving DecidableEq, Repr

/-- The result of one channel of a job (R93); a DROPPED trace holds no sample and no level. -/
structure TraceResult where
  channel : Fin 480
  dropped : Bool
  holed : Bool
  samples : List Int
  saturated : Nat
  levels : List Nat
  deriving DecidableEq, Repr

/-- One correlation lane (R83). window is the four rings as they stood at the grant (R87; log entry 13). -/
structure Lane where
  state : LaneState
  held : Option Nat
  params : Option JobParams
  snapshot : List SnapshotEntry
  reference : List RefSample
  clipCount : Nat
  window : List Ring
  result : List TraceResult
  deriving DecidableEq, Repr

/-! ### Quality control (chapter 6) -/

/-- Action of a quality check (R101). -/
inductive QcAction where
  | off | note | reject | retry
  deriving DecidableEq, Repr

/-- What the expiry of a QC wait timer does (R101). -/
inductive TimeoutAction where
  | merge | reject | retry
  deriving DecidableEq, Repr

/-- The QC policy: limits in degrees and percent, the wait limit in milliseconds (R101). -/
structure QcPolicy where
  phaseLimit : Nat
  phaseAction : QcAction
  distortionLimit : Nat
  distortionAction : QcAction
  forceFloor : Nat
  forceAction : QcAction
  required : Bool
  waitLimit : Nat
  timeoutAction : TimeoutAction
  deriving DecidableEq, Repr

/-! ### Stacks (chapter 7) -/

/-- State of a stack (R118). -/
inductive StackState where
  | opened | closing | held | finalizing
  deriving DecidableEq, Repr

/-- Weighting mode of a stack (R119). -/
inductive Weighting where
  | plain | diversity
  deriving DecidableEq, Repr

/-- Settings of a stack (R119). -/
structure StackSettings where
  vp : Nat
  expected : Nat
  weighting : Weighting
  listen : Nat
  shift : Nat
  divWindow : Nat
  floor : Nat
  gap : GapPolicy
  keepSweeps : Bool
  retryLimit : Nat
  deriving DecidableEq, Repr

/-- One entry of a sweep map (R125). -/
inductive MapEntry where
  | unshot
  | announced (tag : Nat)
  | merged (tag : Nat)
  | retry (tag : Nat)
  | abandoned (tag : Nat) (cause : AbortCause)
  deriving DecidableEq, Repr

/-- The accumulators of one channel of a stack (R121). -/
structure Accumulators where
  numerators : List Int
  denominators : List Int
  mergeCount : Nat
  holed : Bool
  saturatedTotal : Nat
  deriving DecidableEq, Repr

/-- One channel of a stack's channel list, with its state in the list (R148). -/
structure ListedChannel where
  channel : Fin 480
  state : ChannelState
  deriving DecidableEq, Repr

/-- One stack (R119 to R121); the channel list is fixed at completion (R148). -/
structure Stack where
  settings : StackSettings
  state : StackState
  map : List MapEntry
  merged : Nat
  abandoned : Nat
  retriesUsed : Nat
  earliest : Option Nat
  notShot : Option Nat
  accs : Vector Accumulators 480
  channelList : List ListedChannel
  deriving DecidableEq, Repr

/-! ### Output queue (chapter 8) -/

/-- Kind of a record (R144). -/
inductive RecordKind where
  | stack | sweep
  deriving DecidableEq, Repr

/-- A record of the output queue (R144). -/
structure OutRecord where
  kind : RecordKind
  number : Nat
  size : Nat
  content : List Byte
  deriving DecidableEq, Repr

/-- A reservation held for a stack in FINALIZING (R145). -/
structure Reservation where
  vp : Nat
  bytes : Nat
  deriving DecidableEq, Repr

/-- The output queue (R144 to R146, R149, R159). -/
structure OutputQueue where
  records : List OutRecord
  reservations : List Reservation
  heldOrder : List Nat
  nextNumber : Nat
  readPosition : Nat
  effectiveBlock : Nat
  pendingBlock : Nat
  deriving DecidableEq, Repr

/-! ### Results and notices (chapters 9 and 10) -/

/-- Result codes (9.4.1). -/
inductive Result where
  | ok | unknown | badLen | range | state | busy | full | duplicate | noStack | noRef | mismatch | order | short
  | tooOld | future | late | notFound | empty
  deriving DecidableEq, Repr

/-- Origin of a lock (R41). -/
inductive LockOrigin where
  | wake | slip
  deriving DecidableEq, Repr

/-- Disposition of a line fault (R41). -/
inductive FaultDisposition where
  | latched | reported | retrying (used : Nat)
  deriving DecidableEq, Repr

/-- A set of quality checks (R106). -/
structure FailedChecks where
  phase : Bool
  distortion : Bool
  force : Bool
  deriving DecidableEq, Repr

/-- Why a sweep record was dropped (R157). -/
inductive DropReason where
  | noSpace | heldWait
  deriving DecidableEq, Repr

/-- Notice classes (R186). -/
inductive NoticeClass where
  | line | sweep | qc | stack | output | command | progress
  deriving DecidableEq, Repr

/-- A notice's kind with its parameters (R186). CMDBADCAST without a result is DISCARDED, with one it is REFUSED. -/
inductive NoticeBody where
  | lnLock (port : Fin 4) (origin : LockOrigin)
  | lnSlip (port : Fin 4) (count : Nat)
  | lnFault (port : Fin 4) (cause : FaultCause) (disposition : FaultDisposition)
  | lnPark (port : Fin 4)
  | swAbort (tag vp number : Nat) (cause : AbortCause)
  | annRefused (tag : Nat) (result : Result)
  | qcNote (tag : Nat) (failed : FailedChecks)
  | resweep (vp number left : Nat)
  | stkHeld (vp bytes : Nat)
  | stkDone (vp number : Nat)
  | stkRefused (vp : Nat) (result : Result)
  | oqReady (number : Nat)
  | recDrop (tag vp : Nat) (reason : DropReason)
  | cmdOvr (kind : Byte) (ak : AddressKind)
  | cmdBadCast (kind : Byte) (refused : Option Result)
  | swMerged (tag vp number : Nat)
  deriving DecidableEq, Repr

/-- A posted notice (R185). -/
structure Notice where
  body : NoticeBody
  stamp : Nat
  deriving DecidableEq, Repr

/-- The notice queue (R184); bit k of the mask is set when the class with code k is masked (R195). -/
structure NoticeQueue where
  notices : List Notice
  overflow : Bool
  mask : BitVec 7
  deriving DecidableEq, Repr

/-! ### Command port (chapter 9) -/

/-- Selection state (R167). -/
inductive Selection where
  | deselected | selectedOwn | selectedAll
  deriving DecidableEq, Repr

/-- An entry of the input queue (R171). -/
structure Request where
  kind : Byte
  payload : List Byte
  ak : AddressKind
  deriving DecidableEq, Repr

/-- The answer frame being sent (R174). -/
structure Answer where
  address : Nat
  kind : Byte
  result : Result
  payload : List Byte
  deriving DecidableEq, Repr

/-- The uplink (R172); SENDING holds the answer and whether a full reset follows its completion (R179). -/
inductive Uplink where
  | quiet
  | sending (answer : Answer) (thenReset : Bool)
  deriving DecidableEq, Repr

/-- The command port (R166 to R172, R182). -/
structure CommandPort where
  unitAddress : Option Nat
  selection : Selection
  assembly : List Byte
  inputQueue : List Request
  uplink : Uplink
  initInterval : Bool
  deriving DecidableEq, Repr

/-! ### The part -/

/-- The whole state of the part, and the model's queue of commands waiting to be run (log entry 1). -/
structure State where
  channels : Vector ChannelEntry 480
  interval : SampleInterval
  ports : Vector Port 4
  slots : Vector RefSlot 8
  sweeps : List SweepEntry
  lanes : Vector Lane 4
  qcPolicy : QcPolicy
  stackTable : List Stack
  oq : OutputQueue
  nq : NoticeQueue
  cmd : CommandPort
  pending : List Instr
  deriving DecidableEq, Repr

/-- A channel entry after power-on or full reset (R1). -/
def ChannelEntry.reset : ChannelEntry :=
  { station := 0, line := 0, component := .z, polarity := .normal, state := .unmapped }

/-- The default line policy (R39). -/
def LinePolicy.reset : LinePolicy :=
  { slipLimit := 64, slipThreshold := 0, faultMode := .retry, retryWait := 1000, retryLimit := some 3 }

/-- A port after power-on or full reset (R19, R6, R8). -/
def Port.reset : Port :=
  { state := .off, slipCount := 0, retriesUsed := 0, candidate := none, chain := false, wakeTimer := none
    absenceTimer := none, slipTimer := none, retryTimer := none, silenceTimer := none, drainTimer := none
    policy := LinePolicy.reset, wakeInterval := .two, front := none, ring := [] }

/-- An EMPTY reference slot (R43, R55). -/
def RefSlot.reset : RefSlot := { state := .empty, declared := none, samples := [], useCount := 0 }

/-- An IDLE lane (R83). -/
def Lane.reset : Lane :=
  { state := .idle, held := none, params := none, snapshot := [], reference := [], clipCount := 0, window := [], result := [] }

/-- The default QC policy (R101). -/
def QcPolicy.reset : QcPolicy :=
  { phaseLimit := 8, phaseAction := .note, distortionLimit := 30, distortionAction := .note, forceFloor := 60
    forceAction := .retry, required := false, waitLimit := 4000, timeoutAction := .merge }

/-- The output queue after power-on reset (R159, R164). -/
def OutputQueue.reset : OutputQueue :=
  { records := [], reservations := [], heldOrder := [], nextNumber := 1, readPosition := 0, effectiveBlock := 4096
    pendingBlock := 4096 }

/-- The notice queue after power-on or full reset: empty, PROGRESS alone masked (R193). -/
def NoticeQueue.reset : NoticeQueue := { notices := [], overflow := false, mask := 64#7 }

/-- The command port after power-on or full reset, at the start of the initialization interval (R182, R183). -/
def CommandPort.reset (unitAddress : Option Nat) : CommandPort :=
  { unitAddress := unitAddress, selection := .deselected, assembly := [], inputQueue := [], uplink := .quiet, initInterval := true }

/-- The machine right after power-on reset, its initialization interval running. DESIGN CHOICE (unsafe, log entry 3): the
straps read 1, which the spec leaves to the board. -/
def State.reset : State :=
  { channels := Vector.replicate 480 ChannelEntry.reset
    interval := .two
    ports := Vector.replicate 4 Port.reset
    slots := Vector.replicate 8 RefSlot.reset
    sweeps := []
    lanes := Vector.replicate 4 Lane.reset
    qcPolicy := QcPolicy.reset
    stackTable := []
    oq := OutputQueue.reset
    nq := NoticeQueue.reset
    cmd := CommandPort.reset (some 1)
    pending := [] }

end Sys2Proof.Machine
end

