-- ==== Sys2Proof/Machine/Operands.lean ====
section
/-! DEFINITION. Byte order, enumerated codes, and the payload fields of requests (chapter 11, R194 and R195). -/

namespace Sys2Proof.Machine

/-! ### Byte order -/

/-- An unsigned value in n bytes, least significant first (R194). -/
def leBytes : Nat → Nat → List Byte
  | 0, _ => []
  | n + 1, v => BitVec.ofNat 8 v :: leBytes n (v / 256)

/-- The unsigned value that bytes carry, least significant first (R194). -/
def leNat : List Byte → Nat
  | [] => 0
  | b :: bs => b.toNat + 256 * leNat bs

/-- A signed value in n bytes, two's complement, least significant first (R194). -/
def leInt (n : Nat) (v : Int) : List Byte := leBytes n (v % (256 ^ n : Nat)).toNat

/-- The unsigned field of len bytes at offset off of a payload. -/
def field (p : List Byte) (off len : Nat) : Nat := leNat ((p.drop off).take len)

/-- A sample index or "none", which is all ones (R194). -/
def indexBytes : Option Nat → List Byte
  | some i => leBytes 8 i
  | none => List.replicate 8 0xFF#8

/-- Set/clear and yes/no fields (R194). -/
def flagByte (b : Bool) : Byte := if b then 1#8 else 0#8

/-- One byte carrying a small number or a code. -/
def byteOf (n : Nat) : Byte := BitVec.ofNat 8 n

/-- Cuts count items of size bytes each from the front. -/
def chunks (size : Nat) : Nat → List Byte → List (List Byte)
  | 0, _ => []
  | n + 1, p => p.take size :: chunks size n (p.drop size)

/-! ### Enumerated codes: the position in the defining list (R194; log entry 17) -/

/-- R1. -/
def componentList : List Component := [.z, .x, .y]
/-- R1. -/
def polarityList : List Polarity := [.normal, .reversed]
/-- R1. -/
def channelStateList : List ChannelState := [.unmapped, .live, .dead]
/-- R14. -/
def intervalList : List SampleInterval := [.quarter, .half, .one, .two, .four]
/-- R19. -/
def portStateList : List PortState := [.off, .waking, .locked, .slipped, .draining, .parked, .retryWait, .fault]
/-- R39. -/
def slipLimitList : List Nat := [4, 8, 16, 32, 64, 128, 256, 512]
/-- R39. -/
def faultModeList : List FaultMode := [.latch, .retry, .report]
/-- R39. -/
def retryWaitList : List Nat := [250, 500, 1000, 2000, 4000, 8000]
/-- R39; none is UNLIMITED. -/
def retryLimitList : List (Option Nat) := [some 1, some 2, some 3, some 4, some 6, some 8, none]
/-- 2.5. -/
def faultCauseList : List FaultCause := [.noWake, .slipCount, .slipTime]
/-- R43. -/
def slotStateList : List SlotState := [.empty, .loading, .ready]
/-- R56. -/
def sweepStateList : List SweepState := [.waiting, .capturing, .ready, .correlating, .qcWait]
/-- R195. -/
def verdictList : List Verdict := [.pass, .note, .reject, .retry]
/-- R73, R194. -/
def abortCauseList : List AbortCause := [.cancelled, .overrun, .noPilot, .rejected, .qcTimeout, .discarded]
/-- R83. -/
def laneStateList : List LaneState := [.idle, .correlating, .qcWait]
/-- R119. -/
def gapList : List GapPolicy := [.zero, .drop]
/-- R101. -/
def phaseLimitList : List Nat := [2, 4, 6, 8, 12, 16, 24, 32]
/-- R101. -/
def qcActionList : List QcAction := [.off, .note, .reject, .retry]
/-- R101. -/
def distortionLimitList : List Nat := [5, 10, 15, 20, 30, 40, 50]
/-- R101. -/
def forceFloorList : List Nat := [40, 50, 60, 65, 70, 75, 80, 85]
/-- R101, in milliseconds. -/
def waitLimitList : List Nat := [500, 1000, 2000, 4000, 8000, 15000, 30000]
/-- R101. -/
def timeoutActionList : List TimeoutAction := [.merge, .reject, .retry]
/-- R118. -/
def stackStateList : List StackState := [.opened, .closing, .held, .finalizing]
/-- R119. -/
def weightingList : List Weighting := [.plain, .diversity]
/-- R119. -/
def divWindowList : List Nat := [64, 128, 256, 512, 1024, 2048]
/-- R144. -/
def recordKindList : List RecordKind := [.stack, .sweep]
/-- R159. -/
def blockSizeList : List Nat := [1024, 2048, 4096, 8192]
/-- R186. -/
def noticeClassList : List NoticeClass := [.line, .sweep, .qc, .stack, .output, .command, .progress]
/-- 9.4.1. -/
def resultList : List Result :=
  [.ok, .unknown, .badLen, .range, .state, .busy, .full, .duplicate, .noStack, .noRef, .mismatch, .order, .short,
   .tooOld, .future, .late, .notFound, .empty]
/-- R167. -/
def addressKindList : List AddressKind := [.addressed, .broadcast]
/-- R41. -/
def lockOriginList : List LockOrigin := [.wake, .slip]
/-- R157. -/
def dropReasonList : List DropReason := [.noSpace, .heldWait]
/-- YES/NO and set/clear: 0 clear, 1 set (R194). -/
def flagList : List Bool := [false, true]

/-- The code of a value: its position in the list (R194). -/
def codeOf {α : Type} [DecidableEq α] (values : List α) (v : α) : Nat := values.idxOf v

/-- The code of a value as one byte. -/
def codeByte {α : Type} [DecidableEq α] (values : List α) (v : α) : Byte := byteOf (codeOf values v)

/-- The value a code names, none beyond the last value of its list (R194). -/
def ofCode {α : Type} (values : List α) (code : Nat) : Option α := values[code]?

/-! ### Request kinds and payload lengths (R195) -/

/-- The kinds 1 to 31 name requests (R195). -/
def knownKind (kind : Byte) : Bool := decide (1 ≤ kind.toNat) && decide (kind.toNat ≤ 31)

/-- The requests that must be answered, and so are discarded when broadcast: STATUS, IDENT, PROBE, SWLIST, STKINFO, NTREAD,
OQFETCH and OQREL (R170). -/
def mustAnswer (kind : Byte) : Bool := [3, 16, 22, 23, 24, 26, 27, 30].contains kind.toNat

/-- Whether a payload has the length its kind, or the count it carries, asks for (R173, R195). A payload too short to carry
its count has no such length. -/
def payloadSuits (kind : Byte) (p : List Byte) : Bool :=
  match kind.toNat with
  | 1 => decide (3 ≤ p.length) && p.length == 3 + 7 * field p 2 1
  | 2 => p.length == 5
  | 3 => p.length == 12
  | 4 => p.length == 1
  | 5 => p.length == 1
  | 6 => p.length == 1
  | 7 => p.length == 1
  | 8 => p.length == 1
  | 9 => p.length == 6
  | 10 => p.length == 3
  | 11 => decide (5 ≤ p.length) && p.length == 5 + 2 * field p 3 2
  | 12 => p.length == 1
  | 13 => p.length == 1
  | 14 => p.length == 21
  | 15 => p.length == 2
  | 16 => p.length == 0
  | 17 => p.length == 9
  | 18 => p.length == 8
  | 19 => p.length == 14
  | 20 => p.length == 4
  | 21 => p.length == 4
  | 22 => p.length == 4
  | 23 => p.length == 0
  | 24 => p.length == 0
  | 25 => p.length == 1
  | 26 => p.length == 0
  | 27 => p.length == 0
  | 28 => p.length == 0
  | 29 => p.length == 0
  | 30 => p.length == 0
  | 31 => p.length == 1
  | _ => false

/-! ### Length fields -/

/-- The count the two length bytes carry, low byte first (R168). -/
def lengthCount (lo hi : Byte) : Nat := lo.toNat + 256 * hi.toNat

/-- A length of 0 or above 1,025 is inconsistent (R168). -/
def lengthInconsistent (n : Nat) : Bool := n == 0 || decide (Config.lengthLimit < n)

/-! ### Payload fields -/

/-- The attributes byte: component, 4 × polarity, 8 × state (section 11.1). -/
def attributesByte (c : ChannelEntry) : Byte :=
  byteOf (codeOf componentList c.component + 4 * codeOf polarityList c.polarity + 8 * codeOf channelStateList c.state)

/-- The channel description of seven bytes; none where the component part is 3 or the state part 3 or more (section 11.1). -/
def readDescription (p : List Byte) : Option ChannelEntry :=
  let a := field p 6 1
  match ofCode componentList (a % 4), ofCode polarityList (a / 4 % 2), ofCode channelStateList (a / 8) with
  | some c, some pol, some st =>
    some { station := field p 0 4, line := field p 4 2, component := c, polarity := pol, state := st }
  | _, _, _ => none

/-- All of a list, or none where one is missing. -/
def allSome {α : Type} : List (Option α) → Option (List α)
  | [] => some []
  | none :: _ => none
  | some a :: rest => (allSome rest).map (a :: ·)

/-- The channel descriptions of a CHMAP payload (R195). -/
def readDescriptions (p : List Byte) : Option (List ChannelEntry) :=
  allSome ((chunks 7 (field p 2 1) (p.drop 3)).map readDescription)

/-- The samples of a REFDATA payload (R195). -/
def readRefSamples (p : List Byte) : List RefSample :=
  (chunks 2 (field p 3 2) (p.drop 5)).map fun b => BitVec.ofNat 16 (leNat b)

/-- The five settings of an LNPOLICY payload, none where one lies outside its column (R39, R195). -/
def readLinePolicy (p : List Byte) : Option LinePolicy :=
  match ofCode slipLimitList (field p 1 1), ofCode faultModeList (field p 3 1), ofCode retryWaitList (field p 4 1),
    ofCode retryLimitList (field p 5 1) with
  | some sl, some fm, some rw, some rl =>
    if field p 2 1 ≤ 15 then
      some { slipLimit := sl, slipThreshold := field p 2 1, faultMode := fm, retryWait := rw, retryLimit := rl }
    else none
  | _, _, _, _ => none

/-- The nine settings of a QCPOLICY payload, none where one lies outside its column (R101, R195). -/
def readQcPolicy (p : List Byte) : Option QcPolicy :=
  match ofCode phaseLimitList (field p 0 1), ofCode qcActionList (field p 1 1), ofCode distortionLimitList (field p 2 1),
    ofCode qcActionList (field p 3 1), ofCode forceFloorList (field p 4 1), ofCode qcActionList (field p 5 1),
    ofCode flagList (field p 6 1), ofCode waitLimitList (field p 7 1), ofCode timeoutActionList (field p 8 1) with
  | some pl, some pa, some dl, some da, some ff, some fa, some rq, some wl, some ta =>
    some { phaseLimit := pl, phaseAction := pa, distortionLimit := dl, distortionAction := da, forceFloor := ff
           forceAction := fa, required := rq, waitLimit := wl, timeoutAction := ta }
  | _, _, _, _, _, _, _, _, _ => none

/-- The policy as QCPOLICY answers it (R195). -/
def qcPolicyBytes (q : QcPolicy) : List Byte :=
  [codeByte phaseLimitList q.phaseLimit, codeByte qcActionList q.phaseAction, codeByte distortionLimitList q.distortionLimit,
   codeByte qcActionList q.distortionAction, codeByte forceFloorList q.forceFloor, codeByte qcActionList q.forceAction,
   flagByte q.required, codeByte waitLimitList q.waitLimit, codeByte timeoutActionList q.timeoutAction]

/-- The level floor: 0 to 31, or the code DEFAULT (FFh), which gives 8 (R122, R194). -/
def readFloor (code : Nat) : Option Nat :=
  if code ≤ 31 then some code else if code = 255 then some 8 else none

/-- The settings of an STKOPEN payload, none where R123 refuses RANGE. -/
def readStackSettings (p : List Byte) : Option StackSettings :=
  match ofCode weightingList (field p 5 1), ofCode divWindowList (field p 9 1), readFloor (field p 10 1),
    ofCode gapList (field p 11 1), ofCode flagList (field p 12 1) with
  | some wm, some lw, some lf, some gp, some ks =>
    if 1 ≤ field p 0 4 ∧ 1 ≤ field p 4 1 ∧ field p 4 1 ≤ 32 ∧ 64 ≤ field p 6 2 ∧ field p 6 2 ≤ 8192 ∧ field p 8 1 ≤ 31
        ∧ field p 13 1 ≤ 7 then
      some { vp := field p 0 4, expected := field p 4 1, weighting := wm, listen := field p 6 2, shift := field p 8 1
             divWindow := lw, floor := lf, gap := gp, keepSweeps := ks, retryLimit := field p 13 1 }
    else none
  | _, _, _, _, _ => none

/-- The settings as STKINFO answers them, from M on (R195; log entry 18). -/
def stackSettingsBytes (k : StackSettings) : List Byte :=
  [byteOf k.expected, codeByte weightingList k.weighting] ++ leBytes 2 k.listen ++
  [byteOf k.shift, codeByte divWindowList k.divWindow, byteOf k.floor, codeByte gapList k.gap, flagByte k.keepSweeps,
   byteOf k.retryLimit]

/-- What a SWANN carries (R58). -/
structure Announcement where
  tag : Nat
  vp : Nat
  number : Nat
  start : Nat
  length : Nat
  reference : Reference
  deriving DecidableEq, Repr

/-- The reference of a SWANN payload: kind, slot or pilot channel, pilot shift (R195). The shift byte of a slot reference is
not examined. DEDUCED (unsafe, log entry 14). -/
def readReference (kind target shift : Nat) : Option Reference :=
  if kind = 0 then
    if h : target < 8 then some (.slot ⟨target, h⟩) else none
  else if kind = 1 then
    if h : target < 480 then (if shift ≤ 8 then some (.pilot ⟨target, h⟩ shift) else none) else none
  else none

/-- The fields of a SWANN payload, none where condition 1 of R59 refuses RANGE. -/
def readAnnouncement (p : List Byte) : Option Announcement :=
  match readReference (field p 17 1) (field p 18 2) (field p 20 1) with
  | some r =>
    if 1 ≤ field p 0 2 ∧ 1 ≤ field p 2 4 ∧ 1 ≤ field p 6 1 ∧ field p 6 1 ≤ 32 ∧ field p 7 8 < Config.indexLimit
        ∧ 256 ≤ field p 15 2 ∧ field p 15 2 ≤ 16384 then
      some { tag := field p 0 2, vp := field p 2 4, number := field p 6 1, start := field p 7 8, length := field p 15 2
             reference := r }
    else none
  | none => none

end Sys2Proof.Machine
end

