-- ==== Sys2Proof/Machine/Arithmetic.lean ====
section
/-! DEFINITION. The exact integer arithmetic on samples: rounding, clamping, levels, sums, weights and the final division. -/

namespace Sys2Proof.Machine

/-- The right shift by q with rounding half away from zero, of correlation sums (R90) and of pilot samples (R52). -/
def roundShift (q : Nat) (x : Int) : Int :=
  if q = 0 then x else x.sign * ((x.natAbs + 2 ^ (q - 1)) / 2 ^ q : Nat)

/-- The symmetric clamp to ±bound (R52, R91). -/
def clampTo (bound x : Int) : Int := if bound < x then bound else if x < -bound then -bound else x

/-- Whether the clamp changes the value (R53, R91). -/
def clamps (bound x : Int) : Bool := decide (bound < x) || decide (x < -bound)

/-- The bound of a correlated sample, 2^31 − 1 (R91). -/
def traceBound : Int := 2147483647

/-- The bound of a pilot reference sample (R52). -/
def pilotBound : Int := 32767

/-- The number of binary digits of x, 0 for 0 (R92). -/
def bitLength (x : Nat) : Nat := if x = 0 then 0 else Nat.log2 x + 1

/-- The largest magnitude among samples, 0 when there is none (R92). -/
def peak (ys : List Int) : Nat := ys.foldl (fun m y => max m y.natAbs) 0

/-- ceil(Ll / Lw), the number of diversity windows (R92, R119). -/
def windowCount (listen divWindow : Nat) : Nat := (listen + divWindow - 1) / divWindow

/-- The level of each diversity window of a trace (R92). -/
def levels (listen divWindow : Nat) (ys : List Int) : List Nat :=
  (List.range (windowCount listen divWindow)).map fun w => bitLength (peak ((ys.drop (w * divWindow)).take divWindow))

/-- The sum of products of two runs, as long as the shorter of them. -/
def dot : List Int → List Int → Int
  | a :: as, b :: bs => a * b + dot as bs
  | _, _ => 0

/-- The correlation sums A[0] to A[Ll − 1] of a reference with the window samples d'[S], d'[S + 1], … (R89). -/
def correlate (listen : Nat) (r d : List Int) : List Int :=
  (List.range listen).map fun k => dot r (d.drop k)

/-- The weight 2^(31 − L') of a window with level L under the level floor Lf (R128). -/
def weight (floor level : Nat) : Nat := 2 ^ (31 - max level floor)

/-- N over D, rounded half away from zero (R153). -/
def stackedSample (n d : Int) : Int := n.sign * ((2 * n.natAbs + d.natAbs) / (2 * d.natAbs) : Nat)

end Sys2Proof.Machine
end

