-- ==== Sys2Proof/Machine/Check.lean ====
section
/-! DEFINITION. The 16-bit cyclic redundancy check of request, answer and line frames (R169). -/

namespace Sys2Proof.Machine

/-- One bit of the register, generator x^16 + x^12 + x^5 + 1 (R169). -/
def checkBit (c : BitVec 16) : BitVec 16 := if c.msb then (c <<< 1) ^^^ 0x1021#16 else c <<< 1

/-- One byte enters, most significant bit first (R169). -/
def checkByte (c : BitVec 16) (b : Byte) : BitVec 16 :=
  checkBit (checkBit (checkBit (checkBit (checkBit (checkBit (checkBit (checkBit (c ^^^ (b.zeroExtend 16 <<< 8)))))))))

/-- The check over a run of bytes: the register starts at all ones (R169). -/
def check (bytes : List Byte) : BitVec 16 := bytes.foldl checkByte 0xFFFF#16

/-- The check as sent, high byte first (R169). -/
def checkBytes (bytes : List Byte) : List Byte :=
  [(check bytes >>> 8).setWidth 8, (check bytes).setWidth 8]

/-- Whether the last two bytes are the check of the bytes before them (R169). -/
def checkGood (bytes : List Byte) : Bool :=
  decide (2 ≤ bytes.length) && bytes.drop (bytes.length - 2) == checkBytes (bytes.take (bytes.length - 2))

end Sys2Proof.Machine
end

