-- ==== Sys2Proof/Machine/Ring.lean ====
section
/-! DEFINITION. The sample ring of one port: reading a position, writing a frame, emptying skipped positions (R6, R7, R10). -/

namespace Sys2Proof.Machine

/-- The position of a sample index (R6). -/
def ringPosition (i : Nat) : Nat := i % Config.ringDepth

/-- The cell at a position; an unlisted position is EMPTY (R6). -/
def ringRead : Ring → Nat → Option RingCell
  | [], _ => none
  | (q, c) :: rest, pos => if q = pos then some c else ringRead rest pos

/-- Stores a cell at a position, keeping positions strictly rising. -/
def ringPut : Ring → Nat → RingCell → Ring
  | [], pos, cell => [(pos, cell)]
  | (q, c) :: rest, pos, cell =>
    if pos < q then (pos, cell) :: (q, c) :: rest
    else if pos = q then (pos, cell) :: rest
    else (q, c) :: ringPut rest pos cell

/-- Whether a position belongs to one of the indices F + 1 to I − 1 that a write skips: the first index above F with that
position is F + 1 + (the distance round the ring) (R7, step 2). -/
def skips (front index pos : Nat) : Bool :=
  decide (front + 1 + (pos + Config.ringDepth - (front + 1) % Config.ringDepth) % Config.ringDepth < index)

/-- Marks EMPTY every position a write from front F to index I skips (R7, step 2). -/
def ringEmptySkipped (ring : Ring) (front : Option Nat) (index : Nat) : Ring :=
  match front with
  | none => ring
  | some f => ring.filter fun c => !skips f index c.1

/-- The ring after the write of a frame (R7). The position of the frame itself is filled last, so it is not EMPTY even where
a gap of 65,536 or more skips an older index of the same position. -/
def ringWrite (ring : Ring) (front : Option Nat) (index : Nat) (samples : List Sample) : Ring :=
  ringPut (ringEmptySkipped ring front index) (ringPosition index) { tag := index, samples := samples }

/-- The sample of a slot at an index, none when it is absent (R10). -/
def ringSample (ring : Ring) (slot index : Nat) : Option Sample :=
  match ringRead ring (ringPosition index) with
  | some c => if c.tag = index then c.samples[slot]? else none
  | none => none

/-- The canonical form: positions strictly rising and below 65,536, and every listed cell at the position of its tag with 1
to 120 samples. -/
def ringWf (ring : Ring) : Bool :=
  decide ((ring.map (·.1)).Pairwise (· < ·)) &&
  ring.all fun c => decide (c.1 < Config.ringDepth) && decide (c.1 = ringPosition c.2.tag) &&
    decide (1 ≤ c.2.samples.length) && decide (c.2.samples.length ≤ Config.portSlots) &&
    decide (c.2.tag < Config.indexLimit)

/-- The port of a channel, c div 120 (4.7). -/
def channelPort (c : Fin 480) : Fin 4 := ⟨c.val / 120, by omega⟩

/-- The slot of a channel, c mod 120 (4.7). -/
def channelSlot (c : Fin 480) : Nat := c.val % 120

end Sys2Proof.Machine
end

