-- ==== Sys2Proof/Machine/Flags.lean ====
section
/-! DEFINITION. Conditions and pins computed from the state: fronts, delivering ports, line patterns, notice classes and codes, the attention line. -/

namespace Sys2Proof.Machine

/-- A port is delivering in LOCKED and SLIPPED (R41). -/
def Port.delivering (p : Port) : Bool := p.state == .locked || p.state == .slipped

/-- What a port sends its line (R20). -/
inductive LinePattern where
  | idle | wake | stop
  deriving DecidableEq, Repr

/-- The pattern sent in each activation state (R20). -/
def Port.pattern (p : Port) : LinePattern :=
  match p.state with
  | .off | .parked | .retryWait | .fault => .idle
  | .waking => .wake
  | .locked | .slipped => .idle
  | .draining => .stop

/-- Whether a front has reached an index; a front of none has reached nothing (R63). -/
def reached (front : Option Nat) (index : Nat) : Bool :=
  match front with
  | some f => decide (index ≤ f)
  | none => false

/-- The higher of two fronts, none only when both are none (R9). -/
def maxFront : Option Nat → Option Nat → Option Nat
  | some a, some b => some (max a b)
  | some a, none => some a
  | none, b => b

/-- The spread front: the highest of the four port fronts (R9). -/
def State.spreadFront (s : State) : Option Nat :=
  maxFront (maxFront s.ports[0].front s.ports[1].front) (maxFront s.ports[2].front s.ports[3].front)

/-- The stamp of a notice posted now: the spread front, 0 while it is none (R185). -/
def State.stamp (s : State) : Nat := s.spreadFront.getD 0

/-- The sample of a channel at an index, none when absent (R10). -/
def State.sample (s : State) (c : Fin 480) (index : Nat) : Option Sample :=
  ringSample s.ports[channelPort c].ring (channelSlot c) index

/-- The class a notice's kind fixes (R186). -/
def NoticeBody.noticeClass : NoticeBody → NoticeClass
  | .lnLock .. | .lnSlip .. | .lnFault .. | .lnPark .. => .line
  | .swAbort .. | .annRefused .. => .sweep
  | .qcNote .. | .resweep .. => .qc
  | .stkHeld .. | .stkDone .. | .stkRefused .. => .stack
  | .oqReady .. | .recDrop .. => .output
  | .cmdOvr .. | .cmdBadCast .. => .command
  | .swMerged .. => .progress

/-- The code of a notice's kind, in the order of the table of R186 (R194). -/
def NoticeBody.kindCode : NoticeBody → Nat
  | .lnLock .. => 0
  | .lnSlip .. => 1
  | .lnFault .. => 2
  | .lnPark .. => 3
  | .swAbort .. => 4
  | .annRefused .. => 5
  | .qcNote .. => 6
  | .resweep .. => 7
  | .stkHeld .. => 8
  | .stkDone .. => 9
  | .stkRefused .. => 10
  | .oqReady .. => 11
  | .recDrop .. => 12
  | .cmdOvr .. => 13
  | .cmdBadCast .. => 14
  | .swMerged .. => 15

/-- Whether the mask names a class (R195). -/
def masked (mask : BitVec 7) (c : NoticeClass) : Bool := mask.getLsbD (codeOf noticeClassList c)

/-- The notices whose class is not masked. -/
def NoticeQueue.unmasked (q : NoticeQueue) : List Notice := q.notices.filter fun n => !masked q.mask n.body.noticeClass

/-- This part's drive of the attention line (R191). -/
def State.attention (s : State) : Bool := s.nq.notices.any fun n => !masked s.nq.mask n.body.noticeClass

/-- The bytes of the records in the list (R145). -/
def OutputQueue.used (q : OutputQueue) : Nat := (q.records.map (·.size)).sum

/-- The bytes reserved for stacks in FINALIZING (R145). -/
def OutputQueue.reserved (q : OutputQueue) : Nat := (q.reservations.map (·.bytes)).sum

/-- The free space (R145). -/
def OutputQueue.free (q : OutputQueue) : Nat := Config.outputCapacity - q.used - q.reserved

/-- The entry of the list with a tag (R56). -/
def State.findSweep (s : State) (tag : Nat) : Option SweepEntry := s.sweeps.find? fun e => e.tag == tag

/-- The stack with a VP tag (R118). -/
def State.findStack (s : State) (vp : Nat) : Option Stack := s.stackTable.find? fun k => k.settings.vp == vp

/-- Whether some stack's sweep map holds a MERGED entry with a tag (R76, R104). -/
def State.mergedInMap (s : State) (tag : Nat) : Bool := s.stackTable.any fun k => k.map.contains (.merged tag)

end Sys2Proof.Machine
end

