-- ==== Sys2Proof/Machine/Layouts.lean ====
section
/-! DEFINITION. The byte layouts the part presents: notice entries, records, answer frames (R174, R196 to R201). -/

namespace Sys2Proof.Machine

/-! ### Notices -/

/-- The sum of the failed checks: PHASE 1, DISTORTION 2, FORCE 4 (R195). -/
def FailedChecks.code (f : FailedChecks) : Nat :=
  (if f.phase then 1 else 0) + (if f.distortion then 2 else 0) + (if f.force then 4 else 0)

/-- A pair place: the first value in byte 0, the second in bytes 1 and 2 (R201). -/
def pairPlace (a b : Nat) : Nat := a + 256 * b

/-- The third place of LNFAULT (R201). -/
def FaultDisposition.place : FaultDisposition → Nat
  | .latched => pairPlace 0 0
  | .reported => pairPlace 1 0
  | .retrying used => pairPlace 2 used

/-- The three parameter places of a notice, an empty place being 0 (R186, R201; codes: log entry 17). -/
def NoticeBody.places : NoticeBody → Nat × Nat × Nat
  | .lnLock p o => (p.val, codeOf lockOriginList o, 0)
  | .lnSlip p n => (p.val, n, 0)
  | .lnFault p c d => (p.val, codeOf faultCauseList c, d.place)
  | .lnPark p => (p.val, 0, 0)
  | .swAbort t v n c => (t, v, pairPlace n (codeOf abortCauseList c))
  | .annRefused t r => (t, codeOf resultList r, 0)
  | .qcNote t f => (t, f.code, 0)
  | .resweep v n l => (v, n, l)
  | .stkHeld v b => (v, b, 0)
  | .stkDone v n => (v, n, 0)
  | .stkRefused v r => (v, codeOf resultList r, 0)
  | .oqReady n => (n, 0, 0)
  | .recDrop t v r => (t, v, codeOf dropReasonList r)
  | .cmdOvr k a => (k.toNat, codeOf addressKindList a, 0)
  | .cmdBadCast k none => (k.toNat, 0, 0)
  | .cmdBadCast k (some r) => (k.toNat, 1, codeOf resultList r)
  | .swMerged t v n => (t, v, n)

/-- The 22 bytes of a notice in an NTREAD answer (R201). -/
def Notice.bytes (n : Notice) : List Byte :=
  [codeByte noticeClassList n.body.noticeClass, byteOf n.body.kindCode] ++ leBytes 4 n.body.places.1 ++
    leBytes 4 n.body.places.2.1 ++ leBytes 4 n.body.places.2.2 ++ leBytes 8 n.stamp

/-! ### Records -/

/-- The bytes of one trace: its header of 16 bytes and its samples (11.4, R200). -/
def traceSize (listen : Nat) : Nat := 16 + 4 * listen

/-- The size of a stack record with T traces (R148, R200). -/
def stackRecordSize (traces listen : Nat) : Nat := 64 + traces * traceSize listen

/-- The size of a sweep record with T traces (R157, R200). -/
def sweepRecordSize (traces listen : Nat) : Nat := 48 + traces * traceSize listen

/-- The outcome byte of a map entry in a stack record (R154, R198). -/
def outcomeByte : MapEntry → Byte
  | .merged _ => 0
  | .unshot | .announced _ | .retry _ => 1
  | .abandoned _ .overrun => 2
  | .abandoned _ .noPilot => 3
  | .abandoned _ .rejected => 4
  | .abandoned _ .qcTimeout => 5
  | .abandoned _ .cancelled | .abandoned _ .discarded => 1

/-- The outcomes of sweep numbers 1 to 32, FFh above M (R198). -/
def outcomeBytes (map : List MapEntry) : List Byte :=
  (map.map outcomeByte ++ List.replicate 32 0xFF#8).take 32

/-- The header of a stack record, 64 bytes (R198). -/
def stackHeader (k : Stack) (number : Nat) (interval : SampleInterval) : List Byte :=
  [codeByte recordKindList .stack] ++ leBytes 4 number ++ leBytes 4 k.settings.vp ++
  [byteOf k.settings.expected, byteOf k.merged, byteOf k.abandoned, byteOf (k.notShot.getD 0), byteOf k.retriesUsed,
   codeByte weightingList k.settings.weighting] ++
  leBytes 2 k.settings.listen ++
  [byteOf k.settings.shift, codeByte divWindowList k.settings.divWindow, byteOf k.settings.floor,
   codeByte gapList k.settings.gap, codeByte intervalList interval] ++
  indexBytes k.earliest ++ leBytes 2 k.channelList.length ++ outcomeBytes k.map

/-- The bytes of one sample of a trace, 4 bytes signed (R194). -/
def sampleBytes (ys : List Int) : List Byte := ys.flatMap (leInt 4)

/-- The stacked samples of one channel: zeros when nothing was merged, else N over D of the lag's diversity window (R153). -/
def stackedSamples (divWindow : Nat) (a : Accumulators) : List Int :=
  a.numerators.zipIdx.map fun nk =>
    if a.mergeCount = 0 then 0 else stackedSample nk.1 (a.denominators.getD (nk.2 / divWindow) 1)

/-- One trace of a stack record (R198). -/
def stackTrace (k : Stack) (channels : Vector ChannelEntry 480) (l : ListedChannel) : List Byte :=
  let a := k.accs[l.channel]
  let e := channels[l.channel]
  leBytes 2 l.channel.val ++ leBytes 4 e.station ++ leBytes 2 e.line ++
  [codeByte componentList e.component, codeByte channelStateList l.state,
   byteOf ((if a.mergeCount = 0 then 1 else 0) + (if a.holed then 2 else 0)), byteOf a.mergeCount] ++
  leBytes 4 a.saturatedTotal ++ sampleBytes (stackedSamples k.settings.divWindow a)

/-- The content of a stack record (R154, R198). -/
def stackContent (k : Stack) (number : Nat) (interval : SampleInterval) (channels : Vector ChannelEntry 480) : List Byte :=
  stackHeader k number interval ++ k.channelList.flatMap (stackTrace k channels)

/-- How a sweep that reached a record was disposed of (R158). -/
inductive Disposition where
  | merged | qcMissing | rejected | qcTimeout
  deriving DecidableEq, Repr

/-- R199. -/
def dispositionList : List Disposition := [.merged, .qcMissing, .rejected, .qcTimeout]

/-- Reference kind, slot or pilot channel, pilot shift (R199). -/
def referenceBytes : Reference → List Byte
  | .slot i => [0#8] ++ leBytes 2 i.val ++ [0#8]
  | .pilot c ps => [1#8] ++ leBytes 2 c.val ++ [byteOf ps]

/-- The QC record of a sweep record, zeros when absent (R199). -/
def qcBytes : Option QcRecord → List Byte
  | some q => [1#8] ++ leBytes 2 q.phase ++ leBytes 2 q.distortion ++ leBytes 2 q.force ++ [codeByte verdictList q.verdict]
  | none => List.replicate 8 0#8

/-- The header of a sweep record, 48 bytes (R199). -/
def sweepHeader (e : SweepEntry) (k : StackSettings) (clips number traces : Nat) (d : Disposition) (qc : Option QcRecord)
    (interval : SampleInterval) : List Byte :=
  [codeByte recordKindList .sweep] ++ leBytes 4 number ++ leBytes 2 e.tag ++ leBytes 4 e.vp ++ [byteOf e.number] ++
  leBytes 8 e.start ++ leBytes 2 e.length ++ leBytes 2 k.listen ++
  [byteOf k.shift, codeByte divWindowList k.divWindow, codeByte gapList k.gap] ++ referenceBytes e.reference ++
  leBytes 2 clips ++ [codeByte dispositionList d] ++ qcBytes qc ++ [codeByte intervalList interval] ++ leBytes 2 traces ++
  [0#8, 0#8, 0#8]

/-- One trace of a sweep record; a DROPPED trace has zeros (R199). -/
def sweepTrace (listen : Nat) (channels : Vector ChannelEntry 480) (snapshot : List SnapshotEntry) (t : TraceResult) : List Byte :=
  let e := channels[t.channel]
  let pol := ((snapshot[t.channel.val]?).map (·.polarity)).getD .normal
  leBytes 2 t.channel.val ++ leBytes 4 e.station ++ leBytes 2 e.line ++
  [codeByte componentList e.component, codeByte polarityList pol,
   byteOf ((if t.dropped then 1 else 0) + (if t.holed then 2 else 0))] ++
  leBytes 4 (if t.dropped then 0 else t.saturated) ++ [0#8] ++
  sampleBytes (if t.dropped then List.replicate listen 0 else t.samples)

/-- The content of a sweep record (R158, R199). -/
def sweepContent (e : SweepEntry) (k : StackSettings) (l : Lane) (number : Nat) (d : Disposition) (qc : Option QcRecord)
    (interval : SampleInterval) (channels : Vector ChannelEntry 480) : List Byte :=
  sweepHeader e k l.clipCount number l.result.length d qc interval ++ l.result.flatMap (sweepTrace k.listen channels l.snapshot)

/-! ### Answer frames -/

/-- The bytes the answer's check covers: length, kind, result and payload (R169, R174). -/
def Answer.body (a : Answer) : List Byte :=
  leBytes 2 (2 + a.payload.length) ++ [a.kind, codeByte resultList a.result] ++ a.payload

/-- The unmarked characters of an answer frame, after its marked address character (R174). -/
def Answer.frame (a : Answer) : List Byte := a.body ++ checkBytes a.body

/-! ### The PROBE sample -/

/-- A present sample sign-extended to 4 bytes, or the absent marker (R196). -/
def probeSample : Option Sample → List Byte
  | some d => leInt 4 d.toInt
  | none => [0x00#8, 0x00#8, 0x00#8, 0x80#8]

end Sys2Proof.Machine
end

