-- ==== Sys2Proof/Machine/Ops.lean ====
section
/-! DEFINITION. The shared operations every event is made of: posting notices, writing frames, changing a port, an entry, a slot, a lane, a stack. -/

namespace Sys2Proof.Machine

/-! ### Notices -/

/-- Posting a notice: it joins the list, or is dropped and sets the overflow flag at a full list (R187). -/
def State.post (s : State) (b : NoticeBody) : State :=
  if s.nq.notices.length < Config.noticeLimit then
    { s with nq := { s.nq with notices := s.nq.notices ++ [{ body := b, stamp := s.stamp }] } }
  else { s with nq := { s.nq with overflow := true } }

/-! ### Fixed tables -/

/-- Applies a function to every element of a table. -/
def mapTable {α β : Type} {n : Nat} (f : α → β) (v : Vector α n) : Vector β n := ⟨(v.toList.map f).toArray, by simp⟩

/-- Changes one port. -/
def State.updPort (s : State) (p : Fin 4) (f : Port → Port) : State := { s with ports := s.ports.set p (f s.ports[p]) }

/-- Changes one lane. -/
def State.setLane (s : State) (l : Fin 4) (x : Lane) : State := { s with lanes := s.lanes.set l x }

/-- Changes one reference slot. -/
def State.updSlot (s : State) (i : Fin 8) (f : RefSlot → RefSlot) : State := { s with slots := s.slots.set i (f s.slots[i]) }

/-- Writes a frame into the ring of a port and advances its front, as one event (R7). -/
def State.writeFrame (s : State) (p : Fin 4) (index : Nat) (samples : List Sample) : State :=
  s.updPort p fun x => { x with ring := ringWrite x.ring x.front index samples, front := some index }

/-! ### Sweep list -/

/-- Changes the entry with a tag. -/
def State.updSweep (s : State) (tag : Nat) (f : SweepEntry → SweepEntry) : State :=
  { s with sweeps := s.sweeps.map fun e => if e.tag = tag then f e else e }

/-- Removes the entry with a tag; the order of the others is kept (R56). -/
def State.dropSweep (s : State) (tag : Nat) : State := { s with sweeps := s.sweeps.filter fun e => e.tag != tag }

/-- A slot named by a sweep counts one more use (R44). -/
def State.useSlot (s : State) : Reference → State
  | .slot i => s.updSlot i fun x => { x with useCount := x.useCount + 1 }
  | .pilot _ _ => s

/-- A slot named by a removed sweep counts one use less (R44). -/
def State.unuseSlot (s : State) : Reference → State
  | .slot i => s.updSlot i fun x => { x with useCount := x.useCount - 1 }
  | .pilot _ _ => s

/-- The lane holding an entry, if any, becomes IDLE and discards its job and result (R74, R96, R97). -/
def State.freeLane (s : State) : Option (Fin 4) → State
  | some l => s.setLane l Lane.reset
  | none => s

/-! ### Stack table -/

/-- Changes the stack with a VP tag. -/
def State.updStack (s : State) (vp : Nat) (f : Stack → Stack) : State :=
  { s with stackTable := s.stackTable.map fun k => if k.settings.vp = vp then f k else k }

/-- Removes the stack with a VP tag (R118). -/
def State.dropStack (s : State) (vp : Nat) : State :=
  { s with stackTable := s.stackTable.filter fun k => k.settings.vp != vp }

/-- Map entry n of a stack becomes m (R125). -/
def Stack.setMap (k : Stack) (n : Nat) (m : MapEntry) : Stack := { k with map := k.map.set (n - 1) m }

/-- The size of the stack's record, with its fixed channel list (R148). -/
def Stack.recordSize (k : Stack) : Nat := stackRecordSize k.channelList.length k.settings.listen

/-- The channels now LIVE or DEAD, in ascending order, with their states (R148). -/
def State.listedChannels (s : State) : List ListedChannel :=
  ((List.finRange 480).zip s.channels.toList).filterMap fun ce =>
    if ce.2.state = .unmapped then none else some { channel := ce.1, state := ce.2.state }

/-! ### Timers of a port -/

/-- Every timer of the port stopped, lock candidate none, chain flag clear. -/
def Port.quietened (x : Port) : Port :=
  { x with candidate := none, chain := false, wakeTimer := none, absenceTimer := none, slipTimer := none
           retryTimer := none, silenceTimer := none, drainTimer := none }

/-- An increment that stops at 65,535 (R19). -/
def countUp (n : Nat) : Nat := if n < Config.countLimit then n + 1 else Config.countLimit

/-- The absence timer's length, four sample intervals, in milliseconds (R22). -/
def absenceMs (d : SampleInterval) : Nat := 2 ^ codeOf intervalList d

end Sys2Proof.Machine
end

