-- ==== Sys2Proof/Machine/Resets.lean ====
section
/-! DEFINITION. The part's resets: power-on, full, engine; the end of the initialization interval (R179 to R183). -/

namespace Sys2Proof.Machine

/-- The unit address the straps give: none for 0 and 63 (R166). -/
def strapAddress (straps : BitVec 6) : Option Nat :=
  if straps.toNat = 0 ∨ straps.toNat = 63 then none else some straps.toNat

/-- Every block at its power-on value, the unit address read from the straps, the initialization interval running (R181,
R182). The model's queue of commands is kept (log entry 1). -/
def State.powerOn (s : State) (straps : BitVec 6) : State :=
  { State.reset with cmd := CommandPort.reset (strapAddress straps), pending := s.pending }

/-- Every block at its full-reset value; the unit address and the record number counter are kept (R179, R164, R183). -/
def State.fullReset (s : State) : State :=
  { State.reset with
    oq := { OutputQueue.reset with nextNumber := s.oq.nextNumber }, cmd := CommandPort.reset s.cmd.unitAddress
    pending := s.pending }

/-- A reference slot after an engine reset: LOADING becomes EMPTY, READY is kept, the use count is 0 (R55). -/
def RefSlot.engineReset (x : RefSlot) : RefSlot :=
  match x.state with
  | .ready => { x with useCount := 0 }
  | .empty | .loading => RefSlot.reset

/-- The output queue after an engine reset: emptied, the pending block size effective, the counter kept (R164). -/
def OutputQueue.engineReset (q : OutputQueue) : OutputQueue :=
  { OutputQueue.reset with nextNumber := q.nextNumber, effectiveBlock := q.pendingBlock, pendingBlock := q.pendingBlock }

/-- An engine reset: sweep list, lanes, stacks, output queue, notices, input queue and selection emptied; configuration,
ports, ring and READY references kept (R180). -/
def State.engineReset (s : State) : State :=
  { s with
    slots := mapTable RefSlot.engineReset s.slots, sweeps := [], lanes := Vector.replicate 4 Lane.reset, stackTable := []
    oq := s.oq.engineReset, nq := { s.nq with notices := [], overflow := false }
    cmd := { s.cmd with selection := .deselected, assembly := [], inputQueue := [] } }

/-- The end of the initialization interval: the command port is DESELECTED with an empty input queue and a QUIET uplink
(R182). -/
def State.initEnd (s : State) : State :=
  { s with
    cmd := { s.cmd with selection := .deselected, assembly := [], inputQueue := [], uplink := .quiet, initInterval := false } }

end Sys2Proof.Machine
end

