-- ==== Sys2Proof/Machine/CommandPort.lean ====
section
/-! DEFINITION. The command port: characters, frames, the input queue, the taking of a request and its answer (R165 to R176). -/

namespace Sys2Proof.Machine

/-! ### Characters and frames -/

/-- Deselection, discarding any frame under assembly (R165, R167). -/
def State.deselect (s : State) : State := { s with cmd := { s.cmd with selection := .deselected, assembly := [] } }

/-- A marked character received outside the initialization interval (R167). -/
def State.marked (s : State) (v : Byte) : State :=
  if s.cmd.unitAddress = some v.toNat then { s with cmd := { s.cmd with selection := .selectedOwn, assembly := [] } }
  else if v.toNat = 63 then { s with cmd := { s.cmd with selection := .selectedAll, assembly := [] } }
  else s.deselect

/-- A request joins the end of the input queue (R171). -/
def State.enqueue (s : State) (r : Request) : State :=
  { s with cmd := { s.cmd with inputQueue := s.cmd.inputQueue ++ [r] } }

/-- The request a complete frame carries: kind, then payload, less length and check (R168). -/
def frameRequest (frame : List Byte) (ak : AddressKind) : Request :=
  { kind := (frame[2]?).getD 0#8, payload := (frame.drop 3).take (field frame 0 2 - 1), ak := ak }

/-- The disposition of a complete frame: bad check, must-answer request broadcast, full queue, else it joins (R170). -/
def State.dispose (s : State) (frame : List Byte) (ak : AddressKind) : State :=
  let r := frameRequest frame ak
  if checkGood frame = false then s
  else if ak = .broadcast ∧ mustAnswer r.kind = true then s.post (.cmdBadCast r.kind none)
  else if Config.inputLimit ≤ s.cmd.inputQueue.length then s.post (.cmdOvr r.kind ak)
  else s.enqueue r

/-- The frame under assembly with one more byte: discarded at an inconsistent length, disposed of at its last byte, else kept
(R168). -/
def State.assemble (s : State) (frame : List Byte) (ak : AddressKind) : State :=
  if frame.length < 2 then { s with cmd := { s.cmd with assembly := frame } }
  else if lengthInconsistent (field frame 0 2) = true then s.deselect
  else if frame.length < field frame 0 2 + 4 then { s with cmd := { s.cmd with assembly := frame } }
  else s.deselect.dispose frame ak

/-- An unmarked character (R167); during the initialization interval it is discarded (R182). -/
def State.unmarked (s : State) (b : Byte) : State :=
  if s.cmd.initInterval then s
  else
    match s.cmd.selection with
    | .deselected => s
    | .selectedOwn => s.assemble (s.cmd.assembly ++ [b]) .addressed
    | .selectedAll => s.assemble (s.cmd.assembly ++ [b]) .broadcast

/-- A run of unmarked characters. -/
def State.unmarkedRun (s : State) (bs : List Byte) : State := bs.foldl State.unmarked s

/-! ### Taking and answering -/

/-- What the owner of a request gives back: the state it leaves, the result, the answer's payload, the notice of its own for a
refused broadcast (R175), and whether a full reset follows the answer (R179). -/
structure Reply where
  state : State
  result : Result
  payload : List Byte := []
  notice : Option NoticeBody := none
  thenReset : Bool := false
  deriving DecidableEq, Repr

/-- A refusal without payload changes nothing (4.11, R174). -/
def refuse (s : State) (r : Result) : Reply := { state := s, result := r }

/-- Taken, without payload. -/
def takenOk (s : State) : Reply := { state := s, result := .ok }

/-- Whether a request can be taken now: it is the oldest of the input queue, the uplink is QUIET and no initialization
interval runs (R172, R182). -/
def State.canTake (s : State) (r : Request) : Bool :=
  !s.cmd.initInterval && s.cmd.uplink == .quiet && s.cmd.inputQueue.head? == some r

/-- The input queue without its oldest request (R172). -/
def State.dequeue (s : State) : State := { s with cmd := { s.cmd with inputQueue := s.cmd.inputQueue.tail } }

/-- The answer of an addressed request enters SENDING (R174). -/
def State.send (s : State) (kind : Byte) (rep : Reply) : State :=
  { s with
    cmd := { s.cmd with
      uplink := .sending
        { address := s.cmd.unitAddress.getD 0, kind := kind, result := rep.result, payload := rep.payload } rep.thenReset } }

/-- The end of a taking: an addressed request is answered (R174); a refused broadcast is reported by a notice (R175). -/
def State.conclude (r : Request) (rep : Reply) : State :=
  match r.ak with
  | .addressed => rep.state.send r.kind rep
  | .broadcast =>
    if rep.result = .ok then rep.state
    else rep.state.post (rep.notice.getD (.cmdBadCast r.kind (some rep.result)))

/-- The taking of a request: the payload length is checked, then its owner acts on the state without the request (R173). A
request that cannot be taken now is not taken (R172; log entry 4). A BADLEN refusal carries no payload (R174, R195); that this holds
of NTMASK too is DEDUCED (unsafe, log entry 26). -/
def State.take (s : State) (r : Request) (owner : State → Reply) : State :=
  if s.canTake r then
    State.conclude r (if payloadSuits r.kind r.payload then owner s.dequeue else refuse s.dequeue .badLen)
  else s

/-- The taking of a request whose kind names no request: refused UNKNOWN (R173). -/
def State.takeUnknown (s : State) (r : Request) : State :=
  if s.canTake r && !knownKind r.kind then State.conclude r (refuse s.dequeue .unknown) else s

/-- The answer completion: the uplink becomes QUIET, and an addressed RSTFULL performs its full reset (R174, R179). -/
def State.answerEnd (s : State) : State :=
  match s.cmd.uplink with
  | .quiet => s
  | .sending _ true => s.fullReset
  | .sending _ false => { s with cmd := { s.cmd with uplink := .quiet } }

end Sys2Proof.Machine
end

