-- ==== Sys2Proof/Machine/Channels.lean ====
section
/-! DEFINITION. CHMAP, CHSTATE, PROBE, ACQSET (chapter 1). -/

namespace Sys2Proof.Machine

/-- Descriptions written whole into consecutive entries, the first at position c (R2). -/
def writeDescriptions (v : Vector ChannelEntry 480) (c : Nat) : List ChannelEntry → Vector ChannelEntry 480
  | [] => v
  | d :: ds => writeDescriptions (if h : c < 480 then v.set c d else v) (c + 1) ds

/-- The state of count consecutive entries, the first at position c (R4). -/
def writeStates (v : Vector ChannelEntry 480) (c : Nat) (st : ChannelState) : Nat → Vector ChannelEntry 480
  | 0 => v
  | n + 1 => writeStates (if h : c < 480 then v.set c { v[c] with state := st } else v) (c + 1) st n

/-- What the channel table makes of a CHMAP (R2, R3). -/
def chmapOwner (p : List Byte) (s : State) : Reply :=
  match readDescriptions p with
  | none => refuse s .range
  | some ds =>
    if 3 < field p 0 1 ∨ 119 < field p 1 1 ∨ field p 2 1 = 0 ∨ 120 < field p 2 1 then refuse s .range
    else if 120 < field p 1 1 + field p 2 1 then refuse s .range
    else if s.stackTable.isEmpty then
      takenOk { s with channels := writeDescriptions s.channels (120 * field p 0 1 + field p 1 1) ds }
    else refuse s .busy

/-- What the channel table makes of a CHSTATE (R4). -/
def chstateOwner (p : List Byte) (s : State) : Reply :=
  match ofCode channelStateList (field p 4 1) with
  | none => refuse s .range
  | some st =>
    if 479 < field p 0 2 ∨ field p 2 2 = 0 ∨ 480 < field p 2 2 then refuse s .range
    else if 480 < field p 0 2 + field p 2 2 then refuse s .range
    else takenOk { s with channels := writeStates s.channels (field p 0 2) st (field p 2 2) }

/-- The answer of a PROBE: channel, port front, first index, count, samples (R12, R195, R196; first index: log entry 15). -/
def probeAnswer (s : State) (c : Fin 480) (first count : Nat) : List Byte :=
  leBytes 2 c.val ++ indexBytes s.ports[channelPort c].front ++ leBytes 8 first ++ leBytes 2 count ++
    (List.range count).flatMap fun j => probeSample (s.sample c (first + j))

/-- What the ring makes of a PROBE (R12, R13). -/
def probeOwner (p : List Byte) (s : State) : Reply :=
  if h : field p 0 2 < 480 then
    if 1 ≤ field p 10 2 ∧ field p 10 2 ≤ 256 then
      { state := s, result := .ok, payload := probeAnswer s ⟨field p 0 2, h⟩ (field p 2 8) (field p 10 2) }
    else refuse s .range
  else refuse s .range

/-- What the part makes of an ACQSET (R14, R15). -/
def acqsetOwner (p : List Byte) (s : State) : Reply :=
  match ofCode intervalList (field p 0 1) with
  | none => refuse s .range
  | some d =>
    if s.ports.toList.any fun x => x.state != .off then refuse s .busy
    else if s.sweeps.isEmpty then takenOk { s with interval := d }
    else refuse s .busy

/-- CHMAP (R2, R3). -/
def execChmap (ak : AddressKind) (payload : List Byte) (s : State) : Host.Outcome State Fault Refusal :=
  .next (s.take { kind := 1#8, payload := payload, ak := ak } (chmapOwner payload))

/-- CHSTATE (R4, R5). -/
def execChstate (ak : AddressKind) (payload : List Byte) (s : State) : Host.Outcome State Fault Refusal :=
  .next (s.take { kind := 2#8, payload := payload, ak := ak } (chstateOwner payload))

/-- PROBE (R12, R13). -/
def execProbe (payload : List Byte) (s : State) : Host.Outcome State Fault Refusal :=
  .next (s.take { kind := 3#8, payload := payload, ak := .addressed } (probeOwner payload))

/-- ACQSET (R14, R15). -/
def execAcqset (ak : AddressKind) (payload : List Byte) (s : State) : Host.Outcome State Fault Refusal :=
  .next (s.take { kind := 4#8, payload := payload, ak := ak } (acqsetOwner payload))

end Sys2Proof.Machine
end

