-- ==== Sys2Proof/Machine/CommandLine.lean ====
section
/-! DEFINITION. The events of the command line: characters, frames, the answer completion, the power-on reset and the end of the initialization interval (chapter 9). -/

namespace Sys2Proof.Machine

/-- ADDRESS_CHARACTER (R167); during the initialization interval every character is discarded (R182). -/
def execAddressCharacter (value : Byte) (s : State) : Host.Outcome State Fault Refusal :=
  .next (if s.cmd.initInterval then s else s.marked value)

/-- CHARACTER_ERROR (R165, R167). -/
def execCharacterError (s : State) : Host.Outcome State Fault Refusal :=
  .next (if s.cmd.initInterval then s else s.deselect)

/-- INCONSISTENT_LENGTH (R168): the two length bytes arrive. -/
def execInconsistentLength (lo hi : Byte) (s : State) : Host.Outcome State Fault Refusal :=
  .next (s.unmarkedRun [lo, hi])

/-- REQUEST_FRAME (R167, R168, R170): the frame's characters arrive, and the frame is disposed of at the last. -/
def execRequestFrame (chars : List Byte) (s : State) : Host.Outcome State Fault Refusal :=
  .next (s.unmarkedRun chars)

/-- ANSWER_COMPLETION (R174, R179); nothing completes while the uplink is QUIET (log entry 5). -/
def execAnswerCompletion (s : State) : Host.Outcome State Fault Refusal := .next s.answerEnd

/-- POWER_ON_RESET (R181, R166). -/
def execPowerOnReset (straps : BitVec 6) (s : State) : Host.Outcome State Fault Refusal := .next (s.powerOn straps)

/-- INIT_INTERVAL_END (R182); nothing ends outside the interval (log entry 5). -/
def execInitIntervalEnd (s : State) : Host.Outcome State Fault Refusal :=
  .next (if s.cmd.initInterval then s.initEnd else s)

end Sys2Proof.Machine
end

