-- ==== Sys2Proof/Machine/Output.lean ====
section
/-! DEFINITION. The output queue: appends, space requests, the held order, sweep records (R144 to R151, R157). -/

namespace Sys2Proof.Machine

/-- The number after n: 4,294,967,295 is followed by 1 (R146). -/
def nextRecordNumber (n : Nat) : Nat := if n = Config.recordLimit then 1 else n + 1

/-- An append: the record takes the next number and joins the end; OQREADY is posted when the list was empty (R146, R147). -/
def State.append (s : State) (kind : RecordKind) (size : Nat) (content : Nat → List Byte) : State :=
  let n := s.oq.nextNumber
  let r : OutRecord := { kind := kind, number := n, size := size, content := content n }
  if s.oq.records.isEmpty then
    State.post { s with oq := { s.oq with records := [r], nextNumber := nextRecordNumber n, readPosition := 0 } }
      (.oqReady n)
  else { s with oq := { s.oq with records := s.oq.records ++ [r], nextNumber := nextRecordNumber n } }

/-- Space granted to a stack: a reservation is made and the stack enters FINALIZING (R149, R150). -/
def State.grantSpace (s : State) (vp bytes : Nat) : State :=
  State.updStack { s with oq := { s.oq with reservations := s.oq.reservations ++ [{ vp := vp, bytes := bytes }] } } vp
    fun k => { k with state := .finalizing }

/-- Space not granted: the stack is HELD behind the others and STKHELD is posted (R136, R149). -/
def State.holdStack (s : State) (vp bytes : Nat) : State :=
  (State.updStack { s with oq := { s.oq with heldOrder := s.oq.heldOrder ++ [vp] } } vp
    fun k => { k with state := .held }).post (.stkHeld vp bytes)

/-- A complete stack asks for the space of its record (R149). -/
def State.requestSpace (s : State) (vp bytes : Nat) : State :=
  if s.oq.heldOrder.isEmpty && decide (bytes ≤ s.oq.free) then s.grantSpace vp bytes else s.holdStack vp bytes

/-- Serves the held order from its front while the first stack fits (R150). The list is the held order still to be tested.
A tag that names no stack stops the service (never met, log entry 19). -/
def State.serveHeld : List Nat → State → State
  | [], s => { s with oq := { s.oq with heldOrder := [] } }
  | vp :: rest, s =>
    match s.findStack vp with
    | some k =>
      if k.recordSize ≤ s.oq.free then State.serveHeld rest (s.grantSpace vp k.recordSize)
      else { s with oq := { s.oq with heldOrder := vp :: rest } }
    | none => { s with oq := { s.oq with heldOrder := vp :: rest } }

/-- R150 applied to the present held order. -/
def State.serve (s : State) : State := s.serveHeld s.oq.heldOrder

/-- A disposed sweep's result is offered as a sweep record, appended or dropped (R157); nothing is offered when the stack does
not keep sweeps (R72, R74). -/
def State.offerSweep (s : State) (e : SweepEntry) (l : Lane) (d : Disposition) (qc : Option QcRecord) : State :=
  match s.findStack e.vp with
  | some k =>
    let size := sweepRecordSize l.result.length k.settings.listen
    if k.settings.keepSweeps then
      if s.oq.heldOrder.isEmpty then
        if size ≤ s.oq.free then
          s.append .sweep size fun n => sweepContent e k.settings l n d qc s.interval s.channels
        else s.post (.recDrop e.tag e.vp .noSpace)
      else s.post (.recDrop e.tag e.vp .heldWait)
    else s
  | none => s

end Sys2Proof.Machine
end

