-- ==== Sys2Proof/Machine/Stacks.lean ====
section
/-! DEFINITION. What a stack does with a sweep: the merge arithmetic, the routing of aborts, the completion test (R113 to R115, R125 to R136). -/

namespace Sys2Proof.Machine

/-- The weight of each diversity window of a trace: 1 in PLAIN (R127), 2^(31 − L') in DIVERSITY (R128). -/
def traceWeights (k : StackSettings) (t : TraceResult) : List Int :=
  match k.weighting with
  | .plain => List.replicate (windowCount k.listen k.divWindow) 1
  | .diversity => t.levels.map fun l => (weight k.floor l : Int)

/-- A trace that is not DROPPED enters its channel's accumulators (R127 to R129). -/
def accumulate (k : StackSettings) (t : TraceResult) (a : Accumulators) : Accumulators :=
  let ws := traceWeights k t
  { numerators := (a.numerators.zip t.samples).zipIdx.map fun x => x.1.1 + x.1.2 * ws.getD (x.2 / k.divWindow) 1
    denominators := List.zipWith (· + ·) a.denominators ws
    mergeCount := a.mergeCount + 1
    holed := a.holed || t.holed
    saturatedTotal := a.saturatedTotal + t.saturated }

/-- All traces of a result enter the accumulators; a DROPPED trace changes nothing (R129). -/
def accumulateAll (k : StackSettings) (ts : List TraceResult) (accs : Vector Accumulators 480) : Vector Accumulators 480 :=
  ts.foldl (fun v t => if t.dropped then v else v.set t.channel (accumulate k t v[t.channel])) accs

/-- The earliest merged start after a merge with start S (R129). -/
def earlier (old : Option Nat) (start : Nat) : Option Nat :=
  match old with
  | none => some start
  | some x => some (min x start)

/-- The merge of a sweep's traces into its stack (R129). -/
def Stack.mergeSweep (k : Stack) (e : SweepEntry) (ts : List TraceResult) : Stack :=
  { k.setMap e.number (.merged e.tag) with
    accs := accumulateAll k.settings ts k.accs, merged := k.merged + 1, earliest := earlier k.earliest e.start }

/-- Why a sweep is aborted, with what is handed on for routing (R74): the rejecting report, or whether the timeout action
was RETRY. -/
inductive AbortReason where
  | cancelled
  | overrun
  | noPilot
  | rejected (report : QcRecord)
  | qcTimeout (retry : Bool)
  | discarded
  deriving DecidableEq, Repr

/-- The cause of an abort (R73). -/
def AbortReason.cause : AbortReason → AbortCause
  | .cancelled => .cancelled
  | .overrun => .overrun
  | .noPilot => .noPilot
  | .rejected _ => .rejected
  | .qcTimeout _ => .qcTimeout
  | .discarded => .discarded

/-- A sweep number is given up (R114, R131). -/
def Stack.abandon (k : Stack) (e : SweepEntry) (c : AbortCause) : Stack :=
  { k.setMap e.number (.abandoned e.tag c) with abandoned := k.abandoned + 1 }

/-- The resweep decision of a stack and the RESWEEP it posts (R115). -/
def State.resweep (s : State) (e : SweepEntry) (c : AbortCause) : State :=
  match s.findStack e.vp with
  | none => s
  | some k =>
    if k.state = .opened then
      if k.retriesUsed < k.settings.retryLimit then
        (s.updStack e.vp fun k => { k.setMap e.number (.retry e.tag) with retriesUsed := k.retriesUsed + 1 }).post
          (.resweep e.vp e.number (k.settings.retryLimit - (k.retriesUsed + 1)))
      else s.updStack e.vp fun k => k.abandon e c
    else s.updStack e.vp fun k => k.setMap e.number (.retry e.tag)

/-- The routing of an abort in the sweep map (R113, R131). -/
def State.route (s : State) (e : SweepEntry) : AbortReason → State
  | .cancelled => s.updStack e.vp fun k => k.setMap e.number .unshot
  | .overrun => s.updStack e.vp fun k => k.abandon e .overrun
  | .noPilot => s.updStack e.vp fun k => k.abandon e .noPilot
  | .rejected r => if r.verdict = .retry then s.resweep e .rejected else s.updStack e.vp fun k => k.abandon e .rejected
  | .qcTimeout true => s.resweep e .qcTimeout
  | .qcTimeout false => s.updStack e.vp fun k => k.abandon e .qcTimeout
  | .discarded => s

/-- Whether a map entry is counted NOT SHOT at the completion of a CLOSING stack (R134). -/
def MapEntry.notShot : MapEntry → Bool
  | .unshot | .retry _ => true
  | .announced _ | .merged _ | .abandoned _ _ => false

/-- Whether the completion test of a stack holds (R133, R134, R135). -/
def State.complete (s : State) (k : Stack) : Bool :=
  match k.state with
  | .opened => k.merged + k.abandoned == k.settings.expected
  | .closing => s.sweeps.all fun e => e.vp != k.settings.vp
  | .held | .finalizing => false

/-- The not-shot count fixed at completion: 0 in OPEN (R133), the OPEN and RETRY entries in CLOSING (R134). -/
def Stack.notShotCount (k : Stack) : Nat :=
  if k.state = .closing then (k.map.filter MapEntry.notShot).length else 0

/-- The completion test, and the space request when it holds (R135, R136, R148). -/
def State.completionTest (s : State) (vp : Nat) : State :=
  match s.findStack vp with
  | none => s
  | some k =>
    if s.complete k then
      (s.updStack vp fun k => { k with notShot := some k.notShotCount, channelList := s.listedChannels }).requestSpace vp
        (stackRecordSize s.listedChannels.length k.settings.listen)
    else s

end Sys2Proof.Machine
end

