-- ==== Sys2Proof/Machine/Sweeps.lean ====
section
/-! DEFINITION. What the sweep list does with an entry: readiness, overrun, merge, abort (R63 to R66, R72, R74). -/

namespace Sys2Proof.Machine

/-- The state the readiness test leaves an entry in (R63). -/
def readiness (ports : Vector Port 4) (e : SweepEntry) : SweepState :=
  if e.state = .waiting ∨ e.state = .capturing then
    if ports.toList.all fun p => !p.delivering || reached p.front e.windowEnd then .ready
    else if e.state = .waiting ∧ (ports.toList.any fun p => p.delivering && reached p.front e.start) then .capturing
    else e.state
  else e.state

/-- The readiness test applied to every entry (R64). -/
def State.readinessAll (s : State) : State :=
  { s with sweeps := s.sweeps.map fun e => { e with state := readiness s.ports e } }

/-- A merge, in the order of its parts (R72). The lane is the one that holds the entry, as its job left it. -/
def State.mergeSweep (s : State) (e : SweepEntry) (l : Lane) (d : Disposition) : State :=
  ((((((s.updStack e.vp fun k => k.mergeSweep e l.result).offerSweep e l d e.qc).dropSweep e.tag).unuseSlot e.reference).freeLane
    e.lane).post (.swMerged e.tag e.vp e.number)).completionTest e.vp

/-- The disposition and the QC record of the sweep record an abort offers, if its cause offers one (R74, R109). -/
def AbortReason.record : AbortReason → Option (Disposition × Option QcRecord)
  | .rejected r => some (.rejected, some r)
  | .qcTimeout _ => some (.qcTimeout, none)
  | .cancelled | .overrun | .noPilot | .discarded => none

/-- Part 1 of an abort: the sweep record of a rejected or timed-out entry in QCWAIT (R74). -/
def State.offerAborted (s : State) (e : SweepEntry) (why : AbortReason) : State :=
  match why.record, e.lane with
  | some (d, qc), some l => if e.state = .qcWait then s.offerSweep e s.lanes[l] d qc else s
  | _, _ => s

/-- An abort, in the order of its parts (R74); a DISCARDED abort is neither routed nor tested (R79). -/
def State.abortSweep (s : State) (e : SweepEntry) (why : AbortReason) : State :=
  let gone := ((((s.offerAborted e why).freeLane e.lane).dropSweep e.tag).unuseSlot e.reference).post
    (.swAbort e.tag e.vp e.number why.cause)
  if why = .discarded then gone else (gone.route e why).completionTest e.vp

/-- Whether a write of index I aborts an entry (R66). -/
def overrun (index : Nat) (e : SweepEntry) : Bool :=
  (e.state == .capturing || e.state == .ready || e.state == .correlating) && decide (e.start + Config.ringDepth ≤ index)

/-- The overrun test of a write of index I: the entries are aborted in list order (R66). -/
def State.overrunTest (s : State) (index : Nat) : State :=
  (s.sweeps.filter (overrun index)).foldl (fun s e => s.abortSweep e .overrun) s

end Sys2Proof.Machine
end

