-- ==== Sys2Proof/Machine/Lanes.lean ====
section
/-! DEFINITION. The arbiter and the lanes: choice of sweep and lane, the pilot build, the job's result (R51 to R54, R84 to R93). -/

namespace Sys2Proof.Machine

/-! ### What a job computes -/

/-- The window samples of one slot from index start on, absent ones none (R87). -/
def windowSamples (ring : Ring) (slot start count : Nat) : List (Option Sample) :=
  (List.range count).map fun j => ringSample ring slot (start + j)

/-- A present sample under a polarity; the negation is exact (R89). -/
def polarised (pol : Polarity) (d : Sample) : Int :=
  match pol with
  | .normal => d.toInt
  | .reversed => -d.toInt

/-- The trace result of one channel from its window, absent samples being none (R88 to R93). -/
def traceResult (j : JobParams) (r : List Int) (c : Fin 480) (pol : Polarity) (window : List (Option Sample)) : TraceResult :=
  let gaps := window.any Option.isNone
  if j.gap = .drop ∧ gaps = true then
    { channel := c, dropped := true, holed := false, samples := [], saturated := 0, levels := [] }
  else
    let scaled := (correlate j.listen r (window.map fun d => (d.map (polarised pol)).getD 0)).map (roundShift j.shift)
    let ys := scaled.map (clampTo traceBound)
    { channel := c, dropped := false, holed := gaps, samples := ys
      saturated := (scaled.filter (clamps traceBound)).length, levels := levels j.listen j.divWindow ys }

/-- The channels LIVE in a snapshot, with their polarities, in ascending order (R86). -/
def liveChannels (snapshot : List SnapshotEntry) : List (Fin 480 × Polarity) :=
  ((List.finRange 480).zip snapshot).filterMap fun ce => if ce.2.state = .live then some (ce.1, ce.2.polarity) else none

/-- The result of a lane's job, from the inputs fixed at its grant (R87 to R93). -/
def Lane.jobResult (l : Lane) : List TraceResult :=
  match l.params with
  | none => []
  | some j =>
    (liveChannels l.snapshot).map fun cp =>
      traceResult j (l.reference.map BitVec.toInt) cp.1 cp.2
        (windowSamples ((l.window[(channelPort cp.1).val]?).getD []) (channelSlot cp.1) j.start (j.windowEnd + 1 - j.start))

/-! ### The pilot reference -/

/-- A pilot sample shifted with rounding, before the clamp (R52). -/
def pilotRounded (shift : Nat) (pol : Polarity) (d : Sample) : Int := roundShift shift (polarised pol d)

/-- The pilot reference (R52). -/
def pilotReference (shift : Nat) (pol : Polarity) (ds : List Sample) : List RefSample :=
  ds.map fun d => BitVec.ofInt 16 (clampTo pilotBound (pilotRounded shift pol d))

/-- The pilot clip count (R53). -/
def pilotClips (shift : Nat) (pol : Polarity) (ds : List Sample) : Nat :=
  (ds.filter fun d => clamps pilotBound (pilotRounded shift pol d)).length

/-! ### The grant -/

/-- The entry with the smallest start index, the earliest announced among equals (R84). -/
def earliestStart : List SweepEntry → Option SweepEntry
  | [] => none
  | e :: es =>
    match earliestStart es with
    | none => some e
    | some f => if f.start < e.start then some f else some e

/-- The READY entry the arbiter grants next (R84). -/
def State.nextReady (s : State) : Option SweepEntry := earliestStart (s.sweeps.filter fun e => e.state == .ready)

/-- The lowest-numbered IDLE lane (R84). -/
def State.idleLane (s : State) : Option (Fin 4) := (List.finRange 4).find? fun l => s.lanes[l].state == .idle

/-- The state and polarity of all channels now (R86). -/
def State.snapshot (s : State) : List SnapshotEntry :=
  s.channels.toList.map fun c => { state := c.state, polarity := c.polarity }

/-- The four rings now (R87). -/
def State.rings (s : State) : List Ring := s.ports.toList.map (·.ring)

/-- The parameters a lane copies from the entry and its stack (R85). -/
def jobParams (e : SweepEntry) (k : StackSettings) : JobParams :=
  { start := e.start, length := e.length, windowEnd := e.windowEnd, listen := k.listen, shift := k.shift
    divWindow := k.divWindow, gap := k.gap }

/-- A lane as the grant leaves it, with its reference and clip count (R85). -/
def State.grantedLane (s : State) (e : SweepEntry) (k : StackSettings) (r : List RefSample) (clips : Nat) : Lane :=
  { state := .correlating, held := some e.tag, params := some (jobParams e k), snapshot := s.snapshot, reference := r
    clipCount := clips, window := s.rings, result := [] }

/-- The entry as the grant leaves it (R67). -/
def SweepEntry.grantedTo (e : SweepEntry) (l : Fin 4) : SweepEntry := { e with state := .correlating, lane := some l }

/-- The grant of an entry to a lane (R85): slot binding (R51), or the pilot's presence test (R54) and build (R52, R53). -/
def State.grantTo (s : State) (e : SweepEntry) (k : StackSettings) (l : Fin 4) : State :=
  let s' := s.updSweep e.tag fun x => x.grantedTo l
  match e.reference with
  | .slot i => s'.setLane l (s.grantedLane e k (s.slots[i].samples.take e.length) 0)
  | .pilot c shift =>
    match allSome (windowSamples s.ports[channelPort c].ring (channelSlot c) e.start e.length) with
    | some ds =>
      s'.setLane l (s.grantedLane e k (pilotReference shift s.channels[c].polarity ds)
        (pilotClips shift s.channels[c].polarity ds))
    | none => (s'.setLane l (s.grantedLane e k [] 0)).abortSweep (e.grantedTo l) .noPilot

/-- One grant, when the arbiter's condition holds (R84). An entry whose stack is not in the table is not granted (never met,
log entry 19). -/
def State.grant (s : State) : State :=
  match s.nextReady, s.idleLane with
  | some e, some l =>
    match s.findStack e.vp with
    | some k => s.grantTo e k.settings l
    | none => s
  | _, _ => s

/-- The completion of a lane's job: the sweep merges, or enters QCWAIT (R70, R71, R95). A lane with no running job completes
nothing (R96; log entry 5). -/
def State.completeJob (s : State) (l : Fin 4) : State :=
  if s.lanes[l].state = .correlating then
    match s.lanes[l].held.bind s.findSweep with
    | none => s
    | some e =>
      let done := { s.lanes[l] with result := s.lanes[l].jobResult }
      if e.qc.isSome || !s.qcPolicy.required then (s.setLane l done).mergeSweep (e.grantedTo l) done .merged
      else
        (s.setLane l { done with state := .qcWait }).updSweep e.tag fun x =>
          { x with state := .qcWait, qcTimer := some s.qcPolicy.waitLimit }
  else s

end Sys2Proof.Machine
end

