-- ==== Sys2Proof/Machine/LaneEvents.lean ====
section
/-! DEFINITION. The events of the arbiter and of the lanes (chapter 5). -/

namespace Sys2Proof.Machine

/-- GRANT (R84, R85); no grant occurs without an IDLE lane and a READY entry. -/
def execGrant (s : State) : Host.Outcome State Fault Refusal := .next s.grant

/-- LANE_COMPLETION (R94, R95). -/
def execLaneCompletion (lane : Fin 4) (s : State) : Host.Outcome State Fault Refusal := .next (s.completeJob lane)

end Sys2Proof.Machine
end

