-- ==== Sys2Proof/Machine/Ports.lean ====
section
/-! DEFINITION. What a port does at its own events: waking, locking, slips, fault handling, draining (R21 to R38), and the hand-off to the sweep list (R41). -/

namespace Sys2Proof.Machine

/-! ### Entering a state -/

/-- Entry to WAKING: slip count cleared, lock candidate none, wake timer started, the interval latched (R24, R33; log entry
11). -/
def Port.enterWaking (x : Port) (d : SampleInterval) : Port :=
  { x.quietened with
    state := .waking, slipCount := 0, wakeTimer := some Config.wakeMs, wakeInterval := d }

/-- Entry to LOCKED, with the absence timer started (R25, R30). -/
def Port.enterLocked (x : Port) : Port :=
  { x.quietened with state := .locked, absenceTimer := some (absenceMs x.wakeInterval) }

/-- Entry to SLIPPED, with the slip timer started (R28). -/
def Port.enterSlipped (x : Port) : Port :=
  { x.quietened with state := .slipped, slipTimer := some x.policy.slipLimit }

/-- Entry to DRAINING (R35). -/
def Port.enterDraining (x : Port) : Port :=
  { x.quietened with state := .draining, silenceTimer := some Config.silenceMs, drainTimer := some Config.drainLimitMs }

/-- Entry to FAULT (R32). -/
def Port.enterFault (x : Port) : Port := { x.quietened with state := .fault }

/-- Entry to RETRYWAIT, counting the retry (R33). -/
def Port.enterRetryWait (x : Port) : Port :=
  { x.quietened with
    state := .retryWait, retriesUsed := countUp x.retriesUsed, retryTimer := some x.policy.retryWait }

/-- Entry to PARKED (R36). -/
def Port.enterParked (x : Port) : Port := { x.quietened with state := .parked }

/-- The line reset of a port (R38). -/
def Port.lineReset (x : Port) : Port := { x.quietened with state := .off, slipCount := 0, retriesUsed := 0 }

/-! ### Fault handling -/

/-- LATCH, or RETRY with no retry left (R32, R33). -/
def State.faultLatch (s : State) (p : Fin 4) (c : FaultCause) : State :=
  (s.updPort p Port.enterFault).post (.lnFault p c .latched)

/-- Whether RETRY still has a retry: the limit is unlimited, or retries used is below it (R33). -/
def Port.mayRetry (x : Port) : Bool :=
  match x.policy.retryLimit with
  | none => true
  | some n => decide (x.retriesUsed < n)

/-- RETRY with a retry left (R33). -/
def State.faultRetry (s : State) (p : Fin 4) (c : FaultCause) : State :=
  (s.updPort p Port.enterRetryWait).post (.lnFault p c (.retrying (countUp s.ports[p].retriesUsed)))

/-- The check that fired is armed again under REPORT (R34). -/
def Port.rearm (x : Port) : FaultCause → Port
  | .noWake => { x with wakeTimer := some Config.wakeMs }
  | .slipCount => { x with slipCount := 0 }
  | .slipTime => { x with slipTimer := some x.policy.slipLimit }

/-- REPORT (R34). -/
def State.faultReport (s : State) (p : Fin 4) (c : FaultCause) : State :=
  (s.updPort p fun x => x.rearm c).post (.lnFault p c .reported)

/-- Fault handling under the port's fault mode (R32 to R34). -/
def State.handleFault (s : State) (p : Fin 4) (c : FaultCause) : State :=
  match s.ports[p].policy.faultMode with
  | .latch => s.faultLatch p c
  | .retry => if s.ports[p].mayRetry then s.faultRetry p c else s.faultLatch p c
  | .report => s.faultReport p c

/-! ### Hand-off to the sweep list -/

/-- The sweep list's tests at the end of a port's event (R41, R64, R66): the readiness test when a frame was written or the
activation state changed, then the overrun test of the write. DEDUCED (unsafe, log entries 9 and 10). -/
def State.handOff (s before : State) (p : Fin 4) (written : Option Nat) : State :=
  let tested := if written.isSome || s.ports[p].state != before.ports[p].state then s.readinessAll else s
  match written with
  | some i => tested.overrunTest i
  | none => tested

/-! ### Line frames -/

/-- A line frame that passed the conditions of R21. -/
structure LineFrame where
  index : Nat
  samples : List Sample
  deriving DecidableEq, Repr

/-- What a port makes of the bytes between the start code and the end of a frame: a valid frame, or none for a bad one
(R21, R197). -/
def readLineFrame (body : List Byte) : Option LineFrame :=
  let n := field body 6 1
  if 1 ≤ n ∧ n ≤ Config.portSlots ∧ body.length = 6 + 1 + 3 * n + 2 ∧ checkGood body = true then
    some { index := field body 0 6, samples := (chunks 3 n (body.drop 7)).map fun b => BitVec.ofNat 24 (leNat b) }
  else none

/-- Whether an index lies above a front, every index above none (R25). -/
def above (front : Option Nat) (index : Nat) : Bool :=
  match front with
  | some f => decide (f < index)
  | none => true

/-- Whether an index is the one after a front (R27, R30). -/
def follows (front : Option Nat) (index : Nat) : Bool :=
  match front with
  | some f => index == f + 1
  | none => false

/-- A frame received in WAKING (R25): the state after it and the index written. -/
def State.wakingFrame (s : State) (p : Fin 4) (frame : Option LineFrame) : State × Option Nat :=
  match frame with
  | none => (s.updPort p fun x => { x with candidate := none }, none)
  | some f =>
    if above s.ports[p].front f.index then
      if follows s.ports[p].candidate f.index then
        (((s.writeFrame p f.index f.samples).updPort p Port.enterLocked).post (.lnLock p .wake), some f.index)
      else (s.updPort p fun x => { x with candidate := some f.index }, none)
    else (s.updPort p fun x => { x with candidate := none }, none)

/-- The threshold test of a slip event (R29). -/
def State.slipThresholdTest (s : State) (p : Fin 4) : State :=
  let k := s.ports[p].policy.slipThreshold
  if k ≠ 0 ∧ k ≤ s.ports[p].slipCount then s.handleFault p .slipCount else s

/-- Steps 1 and 2 of a slip event: the count, entry to SLIPPED, LNSLIP (R28). -/
def State.slip (s : State) (p : Fin 4) : State :=
  (s.updPort p fun x => { x.enterSlipped with slipCount := countUp x.slipCount }).post
    (.lnSlip p (countUp s.ports[p].slipCount))

/-- A slip event with its frame, none for a bad frame or for frame absence (R28, R29): the state after it and the index
written. -/
def State.slipEvent (s : State) (p : Fin 4) (frame : Option LineFrame) : State × Option Nat :=
  match frame with
  | some f =>
    if above s.ports[p].front f.index then
      ((((s.slip p).writeFrame p f.index f.samples).updPort p fun x => { x with chain := true }).slipThresholdTest p,
        some f.index)
    else ((s.slip p).slipThresholdTest p, none)
  | none => ((s.slip p).slipThresholdTest p, none)

/-- A frame received in LOCKED (R22, R27, R28). -/
def State.lockedFrame (s : State) (p : Fin 4) (frame : Option LineFrame) : State × Option Nat :=
  match frame with
  | some f =>
    if follows s.ports[p].front f.index then
      ((s.writeFrame p f.index f.samples).updPort p fun x => { x with absenceTimer := some (absenceMs x.wakeInterval) },
        some f.index)
    else s.slipEvent p frame
  | none => s.slipEvent p frame

/-- A frame received in SLIPPED (R30). -/
def State.slippedFrame (s : State) (p : Fin 4) (frame : Option LineFrame) : State × Option Nat :=
  match frame with
  | none => (s.updPort p fun x => { x with chain := false }, none)
  | some f =>
    if above s.ports[p].front f.index then
      if follows s.ports[p].front f.index && s.ports[p].chain then
        (((s.writeFrame p f.index f.samples).updPort p Port.enterLocked).post (.lnLock p .slip), some f.index)
      else ((s.writeFrame p f.index f.samples).updPort p fun x => { x with chain := true }, some f.index)
    else (s.updPort p fun x => { x with chain := false }, none)

/-- A frame received in DRAINING restarts the drain silence timer (R23). -/
def State.drainingFrame (s : State) (p : Fin 4) : State :=
  s.updPort p fun x => { x with silenceTimer := some Config.silenceMs }

/-- A frame received on a port, handled by its activation state, before the hand-off (R23 to R30). -/
def State.portFrame (s : State) (p : Fin 4) (frame : Option LineFrame) : State × Option Nat :=
  match s.ports[p].state with
  | .off | .parked | .retryWait | .fault => (s, none)
  | .draining => (s.drainingFrame p, none)
  | .waking => s.wakingFrame p frame
  | .locked => s.lockedFrame p frame
  | .slipped => s.slippedFrame p frame

/-- Parking at the first drain expiry (R36). -/
def State.park (s : State) (p : Fin 4) : State := (s.updPort p Port.enterParked).post (.lnPark p)

end Sys2Proof.Machine
end

