-- ==== Sys2Proof/Machine/LineRequests.lean ====
section
/-! DEFINITION. LNACT, LNDEACT, LNCONF, LNRESET, LNPOLICY (chapter 2). -/

namespace Sys2Proof.Machine

/-- A request's port byte: a port above 3 is refused RANGE before anything else is examined. -/
def onPort (p : List Byte) (s : State) (f : Fin 4 → Reply) : Reply :=
  if h : field p 0 1 < 4 then f ⟨field p 0 1, h⟩ else refuse s .range

/-- LNACT at a port (R24). -/
def lnactAt (s : State) (p : Fin 4) : Reply :=
  match s.ports[p].state with
  | .off | .retryWait =>
    takenOk ((s.updPort p fun x => { x.enterWaking s.interval with retriesUsed := 0 }).handOff s p none)
  | .waking => takenOk s
  | .locked | .slipped | .draining | .parked | .fault => refuse s .state

/-- LNDEACT at a port (R35). -/
def lndeactAt (s : State) (p : Fin 4) : Reply :=
  match s.ports[p].state with
  | .waking | .locked | .slipped => takenOk ((s.updPort p Port.enterDraining).handOff s p none)
  | .off | .draining | .parked | .retryWait | .fault => refuse s .state

/-- LNCONF at a port (R37). -/
def lnconfAt (s : State) (p : Fin 4) : Reply :=
  match s.ports[p].state with
  | .parked => takenOk ((s.updPort p fun x => { x with state := .off }).handOff s p none)
  | .off | .waking | .locked | .slipped | .draining | .retryWait | .fault => refuse s .state

/-- LNRESET at a port: the line reset (R38). -/
def lnresetAt (s : State) (p : Fin 4) : Reply := takenOk ((s.updPort p Port.lineReset).handOff s p none)

/-- LNPOLICY at a port (R39). -/
def lnpolicyAt (payload : List Byte) (s : State) (p : Fin 4) : Reply :=
  match readLinePolicy payload with
  | none => refuse s .range
  | some pol => takenOk (s.updPort p fun x => { x with policy := pol })

/-- LNACT (R24). -/
def execLnact (ak : AddressKind) (payload : List Byte) (s : State) : Host.Outcome State Fault Refusal :=
  .next (s.take { kind := 5#8, payload := payload, ak := ak } fun s => onPort payload s (lnactAt s))

/-- LNDEACT (R35). -/
def execLndeact (ak : AddressKind) (payload : List Byte) (s : State) : Host.Outcome State Fault Refusal :=
  .next (s.take { kind := 6#8, payload := payload, ak := ak } fun s => onPort payload s (lndeactAt s))

/-- LNCONF (R37). -/
def execLnconf (ak : AddressKind) (payload : List Byte) (s : State) : Host.Outcome State Fault Refusal :=
  .next (s.take { kind := 7#8, payload := payload, ak := ak } fun s => onPort payload s (lnconfAt s))

/-- LNRESET (R38). -/
def execLnreset (ak : AddressKind) (payload : List Byte) (s : State) : Host.Outcome State Fault Refusal :=
  .next (s.take { kind := 8#8, payload := payload, ak := ak } fun s => onPort payload s (lnresetAt s))

/-- LNPOLICY (R39, R40). -/
def execLnpolicy (ak : AddressKind) (payload : List Byte) (s : State) : Host.Outcome State Fault Refusal :=
  .next (s.take { kind := 9#8, payload := payload, ak := ak } fun s => onPort payload s (lnpolicyAt payload s))

end Sys2Proof.Machine
end

