-- ==== Sys2Proof/Machine/OutputRequests.lean ====
section
/-! DEFINITION. OQFETCH, OQREL, OQSIZE (chapter 8). -/

namespace Sys2Proof.Machine

/-- The length of the block at the read position of the head record (R159). -/
def OutputQueue.blockLength (q : OutputQueue) (r : OutRecord) : Nat := min q.effectiveBlock (r.size - q.readPosition)

/-- Whether the block at the read position reaches the record's end (R159). -/
def OutputQueue.lastBlock (q : OutputQueue) (r : OutRecord) : Bool := q.readPosition + q.blockLength r == r.size

/-- The bytes of the block at the read position (R159). -/
def OutputQueue.block (q : OutputQueue) (r : OutRecord) : List Byte :=
  (r.content.drop q.readPosition).take (q.blockLength r)

/-- The answer of OQFETCH: record number, kind, read position, byte count, flags (last block 1, EMPTY 2), bytes (R160, R195). -/
def fetchAnswer (q : OutputQueue) : List Byte :=
  match q.records with
  | r :: _ =>
    leBytes 4 r.number ++ [codeByte recordKindList r.kind] ++ leBytes 4 q.readPosition ++ leBytes 2 (q.blockLength r) ++
      [if q.lastBlock r then 1#8 else 0#8] ++ q.block r
  | [] => leBytes 4 0 ++ [0#8] ++ leBytes 4 0 ++ leBytes 2 0 ++ [2#8]

/-- What the output queue makes of an OQFETCH (R160). -/
def oqfetchOwner (s : State) : Reply := { state := s, result := .ok, payload := fetchAnswer s.oq }

/-- Parts 1 and 2 of an OQREL: the read position advances, and at the record's end the record is removed and the held order
served (R161). -/
def State.releaseBlock (s : State) (r : OutRecord) (rest : List OutRecord) : State :=
  if s.oq.readPosition + s.oq.blockLength r < r.size then
    { s with oq := { s.oq with readPosition := s.oq.readPosition + s.oq.blockLength r } }
  else State.serve { s with oq := { s.oq with records := rest, readPosition := 0 } }

/-- Part 3 of an OQREL: the pending block size becomes effective (R161). -/
def State.adoptBlockSize (s : State) : State := { s with oq := { s.oq with effectiveBlock := s.oq.pendingBlock } }

/-- What the output queue makes of an OQREL (R161); the read position answered is the one the event leaves (log entry 16). -/
def oqrelOwner (s : State) : Reply :=
  match s.oq.records with
  | [] => refuse s .empty
  | r :: rest =>
    let after := (s.releaseBlock r rest).adoptBlockSize
    { state := after, result := .ok
      payload := leBytes 4 r.number ++ leBytes 2 (s.oq.blockLength r) ++ leBytes 4 after.oq.readPosition ++
        [flagByte !(decide (s.oq.readPosition + s.oq.blockLength r < r.size))] ++ leBytes 4 after.oq.records.length }

/-- What the output queue makes of an OQSIZE (R162). -/
def oqsizeOwner (p : List Byte) (s : State) : Reply :=
  match ofCode blockSizeList (field p 0 1) with
  | none => refuse s .range
  | some b =>
    { state := { s with oq := { s.oq with pendingBlock := b } }, result := .ok
      payload := [codeByte blockSizeList s.oq.effectiveBlock, codeByte blockSizeList b] }

/-- OQFETCH (R160). -/
def execOqfetch (payload : List Byte) (s : State) : Host.Outcome State Fault Refusal :=
  .next (s.take { kind := 23#8, payload := payload, ak := .addressed } oqfetchOwner)

/-- OQREL (R161). -/
def execOqrel (payload : List Byte) (s : State) : Host.Outcome State Fault Refusal :=
  .next (s.take { kind := 24#8, payload := payload, ak := .addressed } oqrelOwner)

/-- OQSIZE (R162). -/
def execOqsize (ak : AddressKind) (payload : List Byte) (s : State) : Host.Outcome State Fault Refusal :=
  .next (s.take { kind := 25#8, payload := payload, ak := ak } (oqsizeOwner payload))

end Sys2Proof.Machine
end

