-- ==== Sys2Proof/Machine/PortEvents.lean ====
section
/-! DEFINITION. The events of a port: a line frame and the expiries of its timers (chapter 2). An expiry of a timer that is stopped does not occur (R19, 2.1.1) and changes nothing (log entry 5). -/

namespace Sys2Proof.Machine

/-- A port's event and its hand-off (R41). -/
def State.portEvent (s : State) (p : Fin 4) (after : State × Option Nat) : State := after.1.handOff s p after.2

/-- LINE_FRAME (R21 to R30). Bytes that do not begin with the start code are no frame (R197; log entry 8). -/
def execLineFrame (port : Fin 4) (bytes : List Byte) (s : State) : Host.Outcome State Fault Refusal :=
  .next (if bytes.take 2 = [0x7E#8, 0x81#8] then s.portEvent port (s.portFrame port (readLineFrame (bytes.drop 2))) else s)

/-- FRAME_ABSENCE (R22): a slip event without a frame (R28). -/
def execFrameAbsence (port : Fin 4) (s : State) : Host.Outcome State Fault Refusal :=
  .next (if s.ports[port].state = .locked ∧ s.ports[port].absenceTimer.isSome then
    s.portEvent port (s.slipEvent port none) else s)

/-- WAKE_TIMER_EXPIRY (R26). -/
def execWakeTimerExpiry (port : Fin 4) (s : State) : Host.Outcome State Fault Refusal :=
  .next (if s.ports[port].state = .waking ∧ s.ports[port].wakeTimer.isSome then
    s.portEvent port (s.handleFault port .noWake, none) else s)

/-- SLIP_TIMER_EXPIRY (R31). -/
def execSlipTimerExpiry (port : Fin 4) (s : State) : Host.Outcome State Fault Refusal :=
  .next (if s.ports[port].state = .slipped ∧ s.ports[port].slipTimer.isSome then
    s.portEvent port (s.handleFault port .slipTime, none) else s)

/-- RETRY_TIMER_EXPIRY (R33): entry to WAKING with retries used kept and no notice. -/
def execRetryTimerExpiry (port : Fin 4) (s : State) : Host.Outcome State Fault Refusal :=
  .next (if s.ports[port].state = .retryWait ∧ s.ports[port].retryTimer.isSome then
    s.portEvent port (s.updPort port fun x => x.enterWaking s.interval, none) else s)

/-- DRAIN_SILENCE_TIMER_EXPIRY (R36). -/
def execDrainSilenceTimerExpiry (port : Fin 4) (s : State) : Host.Outcome State Fault Refusal :=
  .next (if s.ports[port].state = .draining ∧ s.ports[port].silenceTimer.isSome then
    s.portEvent port (s.park port, none) else s)

/-- DRAIN_LIMIT_TIMER_EXPIRY (R36). -/
def execDrainLimitTimerExpiry (port : Fin 4) (s : State) : Host.Outcome State Fault Refusal :=
  .next (if s.ports[port].state = .draining ∧ s.ports[port].drainTimer.isSome then
    s.portEvent port (s.park port, none) else s)

end Sys2Proof.Machine
end

