-- ==== Sys2Proof/Machine/References.lean ====
section
/-! DEFINITION. REFOPEN, REFDATA, REFCLOSE, REFCLEAR (chapter 3). -/

namespace Sys2Proof.Machine

/-- The loaded count of a slot (R43). -/
def RefSlot.loaded (x : RefSlot) : Nat := x.samples.length

/-- The slot report (R50, R195). -/
def slotReport (s : State) (i : Fin 8) : List Byte :=
  [byteOf i.val, codeByte slotStateList s.slots[i].state] ++ leBytes 2 (s.slots[i].declared.getD 0) ++
    leBytes 2 s.slots[i].loaded ++ [byteOf s.slots[i].useCount]

/-- A reference request's answer carries the slot report, taken or refused (R50). -/
def reported (s : State) (i : Fin 8) (r : Result) : Reply := { state := s, result := r, payload := slotReport s i }

/-- A request's slot byte: a slot above 7 is refused RANGE, with no slot report (R50). -/
def onSlot (p : List Byte) (s : State) (f : Fin 8 → Reply) : Reply :=
  if h : field p 0 1 < 8 then f ⟨field p 0 1, h⟩ else refuse s .range

/-- REFOPEN of a slot (R45). -/
def refopenAt (p : List Byte) (s : State) (i : Fin 8) : Reply :=
  if field p 1 2 < 256 ∨ 16384 < field p 1 2 then reported s i .range
  else if s.slots[i].state = .loading then reported s i .busy
  else if s.slots[i].state = .ready ∧ 0 < s.slots[i].useCount then reported s i .busy
  else
    reported (s.updSlot i fun x => { x with state := .loading, declared := some (field p 1 2), samples := [] }) i .ok

/-- REFDATA of a slot (R46, R47). -/
def refdataAt (p : List Byte) (s : State) (i : Fin 8) : Reply :=
  if 16383 < field p 1 2 ∨ field p 3 2 = 0 ∨ 256 < field p 3 2 then reported s i .range
  else if s.slots[i].state ≠ .loading then reported s i .state
  else if field p 1 2 ≠ s.slots[i].loaded then reported s i .order
  else if s.slots[i].declared.getD 0 < field p 1 2 + field p 3 2 then reported s i .range
  else reported (s.updSlot i fun x => { x with samples := x.samples ++ readRefSamples p }) i .ok

/-- REFCLOSE of a slot (R48). -/
def refcloseAt (s : State) (i : Fin 8) : Reply :=
  match s.slots[i].state with
  | .empty | .ready => reported s i .state
  | .loading =>
    if s.slots[i].declared = some s.slots[i].loaded then
      reported (s.updSlot i fun x => { x with state := .ready, useCount := 0 }) i .ok
    else reported s i .short

/-- REFCLEAR of a slot (R49). -/
def refclearAt (s : State) (i : Fin 8) : Reply :=
  if 0 < s.slots[i].useCount then reported s i .busy
  else reported (s.updSlot i fun _ => RefSlot.reset) i .ok

/-- REFOPEN (R45). -/
def execRefopen (ak : AddressKind) (payload : List Byte) (s : State) : Host.Outcome State Fault Refusal :=
  .next (s.take { kind := 10#8, payload := payload, ak := ak } fun s => onSlot payload s (refopenAt payload s))

/-- REFDATA (R46, R47). -/
def execRefdata (ak : AddressKind) (payload : List Byte) (s : State) : Host.Outcome State Fault Refusal :=
  .next (s.take { kind := 11#8, payload := payload, ak := ak } fun s => onSlot payload s (refdataAt payload s))

/-- REFCLOSE (R48). -/
def execRefclose (ak : AddressKind) (payload : List Byte) (s : State) : Host.Outcome State Fault Refusal :=
  .next (s.take { kind := 12#8, payload := payload, ak := ak } fun s => onSlot payload s (refcloseAt s))

/-- REFCLEAR (R49). -/
def execRefclear (ak : AddressKind) (payload : List Byte) (s : State) : Host.Outcome State Fault Refusal :=
  .next (s.take { kind := 13#8, payload := payload, ak := ak } fun s => onSlot payload s (refclearAt s))

end Sys2Proof.Machine
end

