-- ==== Sys2Proof/Machine/StackRequests.lean ====
section
/-! DEFINITION. STKOPEN, STKCLOSE, STKDROP, STKINFO (chapter 7) and the finalize completion (chapter 8). -/

namespace Sys2Proof.Machine

/-- The accumulators STKOPEN sets for every channel (R121). -/
def Accumulators.initial (k : StackSettings) : Accumulators :=
  { numerators := List.replicate k.listen 0, denominators := List.replicate (windowCount k.listen k.divWindow) 0
    mergeCount := 0, holed := false, saturatedTotal := 0 }

/-- A stack as STKOPEN adds it (R120 to R122). -/
def Stack.new (k : StackSettings) : Stack :=
  { settings := k, state := .opened, map := List.replicate k.expected .unshot, merged := 0, abandoned := 0
    retriesUsed := 0, earliest := none, notShot := none, accs := Vector.replicate 480 (Accumulators.initial k)
    channelList := [] }

/-- A refused STKOPEN: STKREFUSED with the VP tag the request carried when it was broadcast (R123). -/
def stkRefuse (p : List Byte) (s : State) (r : Result) : Reply :=
  { state := s, result := r, notice := some (.stkRefused (field p 0 4) r) }

/-- What the stack table makes of an STKOPEN (R122, R123). -/
def stkopenOwner (p : List Byte) (s : State) : Reply :=
  match readStackSettings p with
  | none => stkRefuse p s .range
  | some k =>
    if Config.stackLimit ≤ s.stackTable.length then stkRefuse p s .full
    else if (s.findStack k.vp).isSome then stkRefuse p s .duplicate
    else takenOk { s with stackTable := s.stackTable ++ [Stack.new k] }

/-- What the stack table makes of an STKCLOSE (R137). -/
def stkcloseOwner (p : List Byte) (s : State) : Reply :=
  if field p 0 4 = 0 then refuse s .range
  else
    match s.findStack (field p 0 4) with
    | none => refuse s .noStack
    | some k =>
      if k.state = .opened then
        takenOk ((s.updStack (field p 0 4) fun k => { k with state := .closing }).completionTest (field p 0 4))
      else refuse s .state

/-- The listed sweeps of a stack are aborted DISCARDED in list order (R79). -/
def State.discardSweeps (s : State) (vp : Nat) : State :=
  (s.sweeps.filter fun e => e.vp == vp).foldl (fun s e => s.abortSweep e .discarded) s

/-- The held place of a stack is removed (R151). -/
def State.leaveHeld (s : State) (vp : Nat) : State :=
  { s with oq := { s.oq with heldOrder := s.oq.heldOrder.filter fun v => v != vp } }

/-- The reservation of a stack is removed (R151, R155). -/
def State.unreserve (s : State) (vp : Nat) : State :=
  { s with oq := { s.oq with reservations := s.oq.reservations.filter fun r => r.vp != vp } }

/-- The STKDROP event by the state of the stack (R140, R151). -/
def State.discardStack (s : State) (k : Stack) : State :=
  let vp := k.settings.vp
  match k.state with
  | .opened | .closing => (s.discardSweeps vp).dropStack vp
  | .held =>
    if s.oq.heldOrder.head? = some vp then ((s.leaveHeld vp).dropStack vp).serve else (s.leaveHeld vp).dropStack vp
  | .finalizing => ((s.unreserve vp).dropStack vp).serve

/-- What the stack table makes of an STKDROP (R139). -/
def stkdropOwner (p : List Byte) (s : State) : Reply :=
  if field p 0 4 = 0 then refuse s .range
  else
    match s.findStack (field p 0 4) with
    | none => refuse s .noStack
    | some k => takenOk (s.discardStack k)

/-- The code of a map entry's state (R195). -/
def MapEntry.code : MapEntry → Nat
  | .unshot => 0
  | .announced _ => 1
  | .merged _ => 2
  | .retry _ => 3
  | .abandoned _ _ => 4

/-- The tag or last tag of a map entry, 0 for OPEN (R142). -/
def MapEntry.tag : MapEntry → Nat
  | .unshot => 0
  | .announced t | .merged t | .retry t | .abandoned t _ => t

/-- The cause byte of a map item, FFh but for ABANDONED (R195). -/
def MapEntry.causeByte : MapEntry → Byte
  | .abandoned _ c => codeByte abortCauseList c
  | .unshot | .announced _ | .merged _ | .retry _ => 0xFF#8

/-- One map item of STKINFO (R195). -/
def mapItem (m : MapEntry) : List Byte := [byteOf m.code] ++ leBytes 2 m.tag ++ [m.causeByte]

/-- The not-shot byte of STKINFO, FFh for none (R195). -/
def notShotByte : Option Nat → Byte
  | some n => byteOf n
  | none => 0xFF#8

/-- The number of listed sweeps of a stack (R142). -/
def State.listedSweeps (s : State) (vp : Nat) : Nat := (s.sweeps.filter fun e => e.vp == vp).length

/-- The answer of STKINFO (R142, R195). -/
def stackInfo (s : State) (k : Stack) : List Byte :=
  leBytes 4 k.settings.vp ++ [codeByte stackStateList k.state] ++ stackSettingsBytes k.settings ++
    [byteOf k.merged, byteOf k.abandoned, byteOf k.retriesUsed, notShotByte k.notShot, byteOf (s.listedSweeps k.settings.vp)] ++
    indexBytes k.earliest ++ k.map.flatMap mapItem

/-- What the stack table makes of an STKINFO (R142). -/
def stkinfoOwner (p : List Byte) (s : State) : Reply :=
  if field p 0 4 = 0 then refuse s .range
  else
    match s.findStack (field p 0 4) with
    | none => refuse s .noStack
    | some k => { state := s, result := .ok, payload := stackInfo s k }

/-- The finalize completion of a stack: record appended in place of its reservation, stack removed, STKDONE (R155). -/
def State.finalize (s : State) (k : Stack) : State :=
  let vp := k.settings.vp
  (((s.unreserve vp).append .stack k.recordSize fun n => stackContent k n s.interval s.channels).dropStack vp).post
    (.stkDone vp s.oq.nextNumber)

/-- STKOPEN (R122 to R124). -/
def execStkopen (ak : AddressKind) (payload : List Byte) (s : State) : Host.Outcome State Fault Refusal :=
  .next (s.take { kind := 19#8, payload := payload, ak := ak } (stkopenOwner payload))

/-- STKCLOSE (R137, R138). -/
def execStkclose (ak : AddressKind) (payload : List Byte) (s : State) : Host.Outcome State Fault Refusal :=
  .next (s.take { kind := 20#8, payload := payload, ak := ak } (stkcloseOwner payload))

/-- STKDROP (R139 to R141). -/
def execStkdrop (ak : AddressKind) (payload : List Byte) (s : State) : Host.Outcome State Fault Refusal :=
  .next (s.take { kind := 21#8, payload := payload, ak := ak } (stkdropOwner payload))

/-- STKINFO (R142). -/
def execStkinfo (payload : List Byte) (s : State) : Host.Outcome State Fault Refusal :=
  .next (s.take { kind := 22#8, payload := payload, ak := .addressed } (stkinfoOwner payload))

/-- FINALIZE_COMPLETION (R155): a stack that is not in FINALIZING has no finalization to complete (log entry 5). -/
def execFinalizeCompletion (vp : Nat) (s : State) : Host.Outcome State Fault Refusal :=
  .next (match s.findStack vp with
    | some k => if k.state = .finalizing then s.finalize k else s
    | none => s)

end Sys2Proof.Machine
end

