-- ==== Sys2Proof/Machine/Quality.lean ====
section
/-! DEFINITION. The QC unit: evaluation of a report, and what a verdict or an expiry does to the sweep (R105 to R109, R112). -/

namespace Sys2Proof.Machine

/-- The checks a report fails, limits and floor in tenths (R105). -/
def failedChecks (q : QcPolicy) (phase distortion force : Nat) : FailedChecks :=
  { phase := decide (10 * q.phaseLimit < phase), distortion := decide (10 * q.distortionLimit < distortion)
    force := decide (force < 10 * q.forceFloor) }

/-- The rank of an action: OFF < NOTE < REJECT < RETRY (R106). -/
def QcAction.rank (a : QcAction) : Nat := codeOf qcActionList a

/-- The more severe of two actions (R106). -/
def QcAction.worse (a b : QcAction) : QcAction := if a.rank < b.rank then b else a

/-- The most severe action among the failed checks, OFF when none failed (R106). -/
def worstAction (q : QcPolicy) (f : FailedChecks) : QcAction :=
  ((if f.phase then q.phaseAction else .off).worse (if f.distortion then q.distortionAction else .off)).worse
    (if f.force then q.forceAction else .off)

/-- The verdict an action names; OFF gives PASS (R106). -/
def QcAction.verdict : QcAction → Verdict
  | .off => .pass
  | .note => .note
  | .reject => .reject
  | .retry => .retry

/-- The verdict of a report (R106). -/
def verdictOf (q : QcPolicy) (f : FailedChecks) : Verdict := (worstAction q f).verdict

/-- The reported failed checks: those whose action is not OFF (R106). -/
def reportedChecks (q : QcPolicy) (f : FailedChecks) : FailedChecks :=
  { phase := f.phase && q.phaseAction != .off, distortion := f.distortion && q.distortionAction != .off
    force := f.force && q.forceAction != .off }

/-- What an SWQC did (R110). -/
inductive QcOutcome where
  | stored | merged | aborted
  deriving DecidableEq, Repr

/-- R195. -/
def qcOutcomeList : List QcOutcome := [.stored, .merged, .aborted]

/-- QCNOTE for verdict NOTE (R108). -/
def State.postNote (s : State) (tag : Nat) (v : Verdict) (reported : FailedChecks) : State :=
  if v = .note then s.post (.qcNote tag reported) else s

/-- A verdict applied to a listed entry without a record (R107): the state after it and the outcome. An entry in QCWAIT with
no lane is not met (log entry 19). -/
def State.applyVerdict (s : State) (e : SweepEntry) (r : QcRecord) : State × QcOutcome :=
  if r.verdict = .reject ∨ r.verdict = .retry then (s.abortSweep e (.rejected r), .aborted)
  else
    let s' := s.updSweep e.tag fun x => { x with qc := some r }
    match e.state, e.lane with
    | .qcWait, some l => (s'.mergeSweep { e with qc := some r } s.lanes[l] .merged, .merged)
    | _, _ => (s', .stored)

/-- The expiry of the QC wait timer of an entry in QCWAIT (R112). -/
def State.expireQcWait (s : State) (e : SweepEntry) : State :=
  match s.qcPolicy.timeoutAction, e.lane with
  | .merge, some l => s.mergeSweep e s.lanes[l] .qcMissing
  | .merge, none => s
  | .reject, _ => s.abortSweep e (.qcTimeout false)
  | .retry, _ => s.abortSweep e (.qcTimeout true)

end Sys2Proof.Machine
end

