-- ==== Sys2Proof/Machine/SweepRequests.lean ====
section
/-! DEFINITION. SWANN, SWCANCEL, SWLIST (chapter 4), QCPOLICY, SWQC (chapter 6) and the expiry of a QC wait. -/

namespace Sys2Proof.Machine

/-! ### Announcement -/

/-- The window end E = S + Ls + Ll − 2 (R57). -/
def windowEnd (start length listen : Nat) : Nat := start + length + listen - 2

/-- Conditions 8 to 10 of R59, on the reference. -/
def referenceRefusal (s : State) (a : Announcement) : Option Result :=
  match a.reference with
  | .slot i =>
    if s.slots[i].state ≠ .ready then some .noRef
    else if s.slots[i].declared ≠ some a.length then some .mismatch
    else none
  | .pilot c _ => if s.channels[c].state = .unmapped then some .noRef else none

/-- Conditions 11 and 12 of R59, against the spread front. -/
def frontRefusal (s : State) (a : Announcement) : Option Result :=
  match s.spreadFront with
  | none => none
  | some f =>
    if a.start + Config.ringDepth ≤ f then some .tooOld
    else if f + Config.futureReach < a.start then some .future
    else none

/-- Conditions 5 to 12 of R59, for the stack with the VP tag. -/
def stackRefusal (s : State) (a : Announcement) (k : Stack) : Option Result :=
  if k.state ≠ .opened then some .state
  else if k.settings.expected < a.number ∨ Config.indexLimit ≤ windowEnd a.start a.length k.settings.listen then some .range
  else
    match k.map[a.number - 1]? with
    | some .unshot | some (.retry _) => (referenceRefusal s a).or (frontRefusal s a)
    | some (.announced _) | some (.merged _) | some (.abandoned _ _) | none => some .duplicate

/-- Conditions 2 to 12 of R59, in order: the first refusal, or the stack the sweep joins. -/
def announceCheck (s : State) (a : Announcement) : Except Result Stack :=
  if Config.sweepLimit ≤ s.sweeps.length then .error .full
  else if (s.findSweep a.tag).isSome then .error .duplicate
  else
    match s.findStack a.vp with
    | none => .error .noStack
    | some k =>
      match stackRefusal s a k with
      | some r => .error r
      | none => .ok k

/-- The entry a SWANN adds, before its readiness test (R61). -/
def newEntry (a : Announcement) (k : Stack) : SweepEntry :=
  { tag := a.tag, vp := a.vp, number := a.number, start := a.start, length := a.length, reference := a.reference
    windowEnd := windowEnd a.start a.length k.settings.listen, state := .waiting, qc := none, lane := none, qcTimer := none }

/-- The state the readiness test leaves a new entry in (R61). -/
def newState (s : State) (e : SweepEntry) : SweepState := readiness s.ports e

/-- The parts of the taking of a SWANN (R61). The readiness test reads only the ports, so the entry is added with its
outcome. -/
def announce (s : State) (a : Announcement) (k : Stack) : State :=
  let e := newEntry a k
  (State.useSlot { s with sweeps := s.sweeps ++ [{ e with state := newState s e }] } a.reference).updStack a.vp
    fun k => k.setMap a.number (.announced a.tag)

/-- A refused SWANN: ANNREFUSED with the tag the request carried when it was broadcast (R60). -/
def annRefuse (p : List Byte) (s : State) (r : Result) : Reply :=
  { state := s, result := r, notice := some (.annRefused (field p 0 2) r) }

/-- What the sweep list makes of a SWANN (R58 to R61). -/
def swannOwner (p : List Byte) (s : State) : Reply :=
  match readAnnouncement p with
  | none => annRefuse p s .range
  | some a =>
    match announceCheck s a with
    | .error r => annRefuse p s r
    | .ok k =>
      { state := announce s a k, result := .ok
        payload := indexBytes (some (newEntry a k).windowEnd) ++ [codeByte sweepStateList (newState s (newEntry a k))] }

/-! ### Cancelling and listing -/

/-- What the sweep list makes of a SWCANCEL (R76). -/
def swcancelOwner (p : List Byte) (s : State) : Reply :=
  if field p 0 2 = 0 then refuse s .range
  else
    match s.findSweep (field p 0 2) with
    | some e => takenOk (s.abortSweep e .cancelled)
    | none => if s.mergedInMap (field p 0 2) then refuse s .late else refuse s .notFound

/-- A lane number, FFh for none (R194). -/
def laneByte : Option (Fin 4) → Byte
  | some l => byteOf l.val
  | none => 0xFF#8

/-- One item of the SWLIST answer (R80, R195). -/
def sweepItem (e : SweepEntry) : List Byte :=
  leBytes 2 e.tag ++ leBytes 4 e.vp ++ [byteOf e.number] ++ leBytes 8 e.start ++
    [codeByte sweepStateList e.state, laneByte e.lane]

/-- What the sweep list makes of a SWLIST (R80). -/
def swlistOwner (s : State) : Reply :=
  { state := s, result := .ok, payload := [byteOf s.sweeps.length] ++ s.sweeps.flatMap sweepItem }

/-! ### Quality control -/

/-- What the QC unit makes of a QCPOLICY; its answer carries the policy, taken or refused (R102). -/
def qcpolicyOwner (p : List Byte) (s : State) : Reply :=
  match readQcPolicy p with
  | none => { state := s, result := .range, payload := qcPolicyBytes s.qcPolicy }
  | some q => { state := { s with qcPolicy := q }, result := .ok, payload := qcPolicyBytes q }

/-- The taking of a report for a listed entry without a record, in the order of its parts (R108, R110). -/
def reportTaken (s : State) (e : SweepEntry) (phase distortion force : Nat) : Reply :=
  let f := failedChecks s.qcPolicy phase distortion force
  let v := verdictOf s.qcPolicy f
  let rep := reportedChecks s.qcPolicy f
  let after := (s.postNote e.tag v rep).applyVerdict e
    { phase := phase, distortion := distortion, force := force, verdict := v }
  { state := after.1, result := .ok, payload := [codeByte verdictList v, byteOf rep.code, codeByte qcOutcomeList after.2] }

/-- What the QC unit makes of an SWQC (R104 to R110). -/
def swqcOwner (p : List Byte) (s : State) : Reply :=
  if field p 0 2 = 0 ∨ 1800 < field p 2 2 ∨ 1000 < field p 4 2 ∨ 2000 < field p 6 2 then refuse s .range
  else
    match s.findSweep (field p 0 2) with
    | some e => if e.qc.isSome then refuse s .duplicate else reportTaken s e (field p 2 2) (field p 4 2) (field p 6 2)
    | none => if s.mergedInMap (field p 0 2) then refuse s .late else refuse s .notFound

/-- SWANN (R58 to R62). -/
def execSwann (ak : AddressKind) (payload : List Byte) (s : State) : Host.Outcome State Fault Refusal :=
  .next (s.take { kind := 14#8, payload := payload, ak := ak } (swannOwner payload))

/-- SWCANCEL (R76, R77). -/
def execSwcancel (ak : AddressKind) (payload : List Byte) (s : State) : Host.Outcome State Fault Refusal :=
  .next (s.take { kind := 15#8, payload := payload, ak := ak } (swcancelOwner payload))

/-- SWLIST (R80). -/
def execSwlist (payload : List Byte) (s : State) : Host.Outcome State Fault Refusal :=
  .next (s.take { kind := 16#8, payload := payload, ak := .addressed } swlistOwner)

/-- QCPOLICY (R102, R103). -/
def execQcpolicy (ak : AddressKind) (payload : List Byte) (s : State) : Host.Outcome State Fault Refusal :=
  .next (s.take { kind := 17#8, payload := payload, ak := ak } (qcpolicyOwner payload))

/-- SWQC (R104 to R111). -/
def execSwqc (ak : AddressKind) (payload : List Byte) (s : State) : Host.Outcome State Fault Refusal :=
  .next (s.take { kind := 18#8, payload := payload, ak := ak } (swqcOwner payload))

/-- QC_WAIT_EXPIRY (R112): the timer of an entry that is not in QCWAIT is stopped and does not expire (R71; log entry 5). -/
def execQcWaitExpiry (tag : Nat) (s : State) : Host.Outcome State Fault Refusal :=
  .next (match s.findSweep tag with
    | some e => if e.state = .qcWait ∧ e.qcTimer.isSome then s.expireQcWait e else s
    | none => s)

end Sys2Proof.Machine
end

