-- ==== Sys2Proof/Machine/SystemRequests.lean ====
section
/-! DEFINITION. STATUS, IDENT, RSTFULL, RSTENG (chapter 9), NTREAD, NTMASK (chapter 10), and a request of unknown kind. -/

namespace Sys2Proof.Machine

/-- One port in the STATUS answer (R177, R195). -/
def portStatus (x : Port) : List Byte :=
  [codeByte portStateList x.state] ++ indexBytes x.front ++ leBytes 2 x.slipCount ++ leBytes 2 x.retriesUsed

/-- One lane in the STATUS answer; a tag of none is 0 (R177, R194). -/
def laneStatus (l : Lane) : List Byte := [codeByte laneStateList l.state] ++ leBytes 2 (l.held.getD 0)

/-- The answer of STATUS (R177, R195). -/
def statusAnswer (s : State) : List Byte :=
  indexBytes s.spreadFront ++ s.ports.toList.flatMap portStatus ++ [byteOf s.sweeps.length] ++
    s.lanes.toList.flatMap laneStatus ++ [byteOf s.stackTable.length] ++ leBytes 4 s.oq.used ++ leBytes 4 s.oq.reserved ++
    leBytes 4 s.oq.records.length ++ [byteOf s.nq.notices.length, flagByte s.nq.overflow]

/-- STATUS changes nothing (R177). -/
def statusOwner (s : State) : Reply := { state := s, result := .ok, payload := statusAnswer s }

/-- The answer of IDENT (R178, R195); a part without a unit address never answers (R166; log entry 23). -/
def identAnswer (s : State) : List Byte :=
  leBytes 2 480 ++ [2#8, byteOf (s.cmd.unitAddress.getD 0)] ++ leBytes 2 480 ++ [4#8, 4#8, 8#8, 8#8, 32#8] ++
    leBytes 4 65536 ++ leBytes 4 67108864

/-- IDENT changes nothing (R178). -/
def identOwner (s : State) : Reply := { state := s, result := .ok, payload := identAnswer s }

/-- What the part makes of an RSTFULL: at once when broadcast, after its answer when addressed (R179). -/
def rstfullOwner (ak : AddressKind) (s : State) : Reply :=
  match ak with
  | .addressed => { state := s, result := .ok, thenReset := true }
  | .broadcast => takenOk s.fullReset

/-- What the part makes of an RSTENG (R180). -/
def rstengOwner (s : State) : Reply := takenOk s.engineReset

/-- The answer of NTREAD: indication, remaining count, overflow flag, notice entry (R188, R195, R201). -/
def noticeAnswer (q : NoticeQueue) : List Byte :=
  match q.notices with
  | n :: rest => [0#8, byteOf rest.length, flagByte q.overflow] ++ n.bytes
  | [] => [1#8, 0#8, flagByte q.overflow] ++ List.replicate 22 0#8

/-- What the notice queue makes of an NTREAD: the oldest notice leaves and the overflow flag is cleared; an empty list is
changed in nothing (R188). -/
def ntreadOwner (s : State) : Reply :=
  match s.nq.notices with
  | [] => { state := s, result := .ok, payload := noticeAnswer s.nq }
  | _ :: rest =>
    { state := { s with nq := { s.nq with notices := rest, overflow := false } }, result := .ok, payload := noticeAnswer s.nq }

/-- The answer of NTMASK: the mask in force and the number of unmasked notices (R190, R195). -/
def maskAnswer (q : NoticeQueue) : List Byte := [byteOf q.mask.toNat, byteOf q.unmasked.length]

/-- What the notice queue makes of an NTMASK (R190). -/
def ntmaskOwner (p : List Byte) (s : State) : Reply :=
  if 128 ≤ field p 0 1 then { state := s, result := .range, payload := maskAnswer s.nq }
  else
    let q := { s.nq with mask := BitVec.ofNat 7 (field p 0 1) }
    { state := { s with nq := q }, result := .ok, payload := maskAnswer q }

/-- STATUS (R177). -/
def execStatus (payload : List Byte) (s : State) : Host.Outcome State Fault Refusal :=
  .next (s.take { kind := 26#8, payload := payload, ak := .addressed } statusOwner)

/-- IDENT (R178). -/
def execIdent (payload : List Byte) (s : State) : Host.Outcome State Fault Refusal :=
  .next (s.take { kind := 27#8, payload := payload, ak := .addressed } identOwner)

/-- RSTFULL (R179). -/
def execRstfull (ak : AddressKind) (payload : List Byte) (s : State) : Host.Outcome State Fault Refusal :=
  .next (s.take { kind := 28#8, payload := payload, ak := ak } (rstfullOwner ak))

/-- RSTENG (R180). -/
def execRsteng (ak : AddressKind) (payload : List Byte) (s : State) : Host.Outcome State Fault Refusal :=
  .next (s.take { kind := 29#8, payload := payload, ak := ak } rstengOwner)

/-- NTREAD (R188, R189). -/
def execNtread (payload : List Byte) (s : State) : Host.Outcome State Fault Refusal :=
  .next (s.take { kind := 30#8, payload := payload, ak := .addressed } ntreadOwner)

/-- NTMASK (R190). -/
def execNtmask (ak : AddressKind) (payload : List Byte) (s : State) : Host.Outcome State Fault Refusal :=
  .next (s.take { kind := 31#8, payload := payload, ak := ak } (ntmaskOwner payload))

/-- UNKNOWN_REQUEST (R173, R195): a kind that names a request is not taken here (log entry 4). -/
def execUnknownRequest (ak : AddressKind) (kind : Byte) (payload : List Byte) (s : State) : Host.Outcome State Fault Refusal :=
  .next (s.takeUnknown { kind := kind, payload := payload, ak := ak })

end Sys2Proof.Machine
end

