-- ==== Sys2Proof/Machine/Dispatch.lean ====
section
/-! DEFINITION. One arm per command, each one direct call of its meaning. -/

namespace Sys2Proof.Machine

/-- The effect of a command on everything but the queue of waiting commands. -/
def exec (i : Instr) (s : State) : Host.Outcome State Fault Refusal :=
  match i with
  | .chmap ak payload => Sys2Proof.Machine.execChmap ak payload s
  | .chstate ak payload => Sys2Proof.Machine.execChstate ak payload s
  | .probe payload => Sys2Proof.Machine.execProbe payload s
  | .acqset ak payload => Sys2Proof.Machine.execAcqset ak payload s
  | .lnact ak payload => Sys2Proof.Machine.execLnact ak payload s
  | .lndeact ak payload => Sys2Proof.Machine.execLndeact ak payload s
  | .lnconf ak payload => Sys2Proof.Machine.execLnconf ak payload s
  | .lnreset ak payload => Sys2Proof.Machine.execLnreset ak payload s
  | .lnpolicy ak payload => Sys2Proof.Machine.execLnpolicy ak payload s
  | .refopen ak payload => Sys2Proof.Machine.execRefopen ak payload s
  | .refdata ak payload => Sys2Proof.Machine.execRefdata ak payload s
  | .refclose ak payload => Sys2Proof.Machine.execRefclose ak payload s
  | .refclear ak payload => Sys2Proof.Machine.execRefclear ak payload s
  | .swann ak payload => Sys2Proof.Machine.execSwann ak payload s
  | .swcancel ak payload => Sys2Proof.Machine.execSwcancel ak payload s
  | .swlist payload => Sys2Proof.Machine.execSwlist payload s
  | .qcpolicy ak payload => Sys2Proof.Machine.execQcpolicy ak payload s
  | .swqc ak payload => Sys2Proof.Machine.execSwqc ak payload s
  | .stkopen ak payload => Sys2Proof.Machine.execStkopen ak payload s
  | .stkclose ak payload => Sys2Proof.Machine.execStkclose ak payload s
  | .stkdrop ak payload => Sys2Proof.Machine.execStkdrop ak payload s
  | .stkinfo payload => Sys2Proof.Machine.execStkinfo payload s
  | .oqfetch payload => Sys2Proof.Machine.execOqfetch payload s
  | .oqrel payload => Sys2Proof.Machine.execOqrel payload s
  | .oqsize ak payload => Sys2Proof.Machine.execOqsize ak payload s
  | .status payload => Sys2Proof.Machine.execStatus payload s
  | .ident payload => Sys2Proof.Machine.execIdent payload s
  | .rstfull ak payload => Sys2Proof.Machine.execRstfull ak payload s
  | .rsteng ak payload => Sys2Proof.Machine.execRsteng ak payload s
  | .ntread payload => Sys2Proof.Machine.execNtread payload s
  | .ntmask ak payload => Sys2Proof.Machine.execNtmask ak payload s
  | .unknownRequest ak kind payload => Sys2Proof.Machine.execUnknownRequest ak kind payload s
  | .addressCharacter value => Sys2Proof.Machine.execAddressCharacter value s
  | .characterError => Sys2Proof.Machine.execCharacterError s
  | .inconsistentLength lo hi => Sys2Proof.Machine.execInconsistentLength lo hi s
  | .requestFrame chars => Sys2Proof.Machine.execRequestFrame chars s
  | .answerCompletion => Sys2Proof.Machine.execAnswerCompletion s
  | .powerOnReset straps => Sys2Proof.Machine.execPowerOnReset straps s
  | .initIntervalEnd => Sys2Proof.Machine.execInitIntervalEnd s
  | .lineFrame port bytes => Sys2Proof.Machine.execLineFrame port bytes s
  | .frameAbsence port => Sys2Proof.Machine.execFrameAbsence port s
  | .wakeTimerExpiry port => Sys2Proof.Machine.execWakeTimerExpiry port s
  | .slipTimerExpiry port => Sys2Proof.Machine.execSlipTimerExpiry port s
  | .retryTimerExpiry port => Sys2Proof.Machine.execRetryTimerExpiry port s
  | .drainSilenceTimerExpiry port => Sys2Proof.Machine.execDrainSilenceTimerExpiry port s
  | .drainLimitTimerExpiry port => Sys2Proof.Machine.execDrainLimitTimerExpiry port s
  | .grant => Sys2Proof.Machine.execGrant s
  | .laneCompletion lane => Sys2Proof.Machine.execLaneCompletion lane s
  | .qcWaitExpiry tag => Sys2Proof.Machine.execQcWaitExpiry tag s
  | .finalizeCompletion vp => Sys2Proof.Machine.execFinalizeCompletion vp s

end Sys2Proof.Machine
end

