-- ==== Sys2Proof/Machine/Step.lean ====
section
/-! DEFINITION. One step: the command at the front of the queue is run; on an empty queue the part idles (log entry 1). -/

namespace Sys2Proof.Machine

/-- Takes the oldest waiting command and runs it on the state with the rest of the queue. DESIGN CHOICE (log entry 1): with no
command waiting, nothing happens. -/
def step (s : State) : Host.Outcome State Fault Refusal :=
  match s.pending with
  | [] => .next s
  | c :: rest => exec c { s with pending := rest }

/-- The state with the command a table word spells at the front of its queue, unchanged where the word spells none (log entry
2). -/
def State.withFetchWord (s : State) (nbits w : Nat) : State :=
  match decodeTableWord nbits w with
  | some c => { s with pending := c :: s.pending }
  | none => s

end Sys2Proof.Machine
end

