-- ==== Sys2Proof/Machine/Payloads.lean ====
section
/-! DEFINITION. The bytes the outside sends, field by field: request payloads (R195), request frames (R168) and line frames (R197). The statements speak of requests by these. -/

namespace Sys2Proof.Machine

/-- The seven bytes of a channel description (R195, section 11.1). -/
def descriptionBytes (c : ChannelEntry) : List Byte := leBytes 4 c.station ++ leBytes 2 c.line ++ [attributesByte c]

/-- CHMAP (R195). -/
def chmapPayload (port first : Nat) (ds : List ChannelEntry) : List Byte :=
  leBytes 1 port ++ leBytes 1 first ++ leBytes 1 ds.length ++ ds.flatMap descriptionBytes

/-- CHSTATE (R195). -/
def chstatePayload (first count : Nat) (st : ChannelState) : List Byte :=
  leBytes 2 first ++ leBytes 2 count ++ [codeByte channelStateList st]

/-- PROBE (R195). -/
def probePayload (channel first count : Nat) : List Byte := leBytes 2 channel ++ leBytes 8 first ++ leBytes 2 count

/-- LNPOLICY (R195). -/
def lnpolicyPayload (port : Nat) (pol : LinePolicy) : List Byte :=
  leBytes 1 port ++
    [codeByte slipLimitList pol.slipLimit, byteOf pol.slipThreshold, codeByte faultModeList pol.faultMode,
     codeByte retryWaitList pol.retryWait, codeByte retryLimitList pol.retryLimit]

/-- REFOPEN (R195). -/
def refopenPayload (slot length : Nat) : List Byte := leBytes 1 slot ++ leBytes 2 length

/-- REFDATA (R195). -/
def refdataPayload (slot offset : Nat) (samples : List RefSample) : List Byte :=
  leBytes 1 slot ++ leBytes 2 offset ++ leBytes 2 samples.length ++ samples.flatMap fun r => leBytes 2 r.toNat

/-- The kind, target and shift of a reference in a SWANN; a slot's shift is sent as 0 (R195). -/
def referenceFields : Reference → List Byte
  | .slot i => leBytes 1 0 ++ leBytes 2 i.val ++ leBytes 1 0
  | .pilot c shift => leBytes 1 1 ++ leBytes 2 c.val ++ leBytes 1 shift

/-- SWANN (R195). -/
def swannPayload (a : Announcement) : List Byte :=
  leBytes 2 a.tag ++ leBytes 4 a.vp ++ leBytes 1 a.number ++ leBytes 8 a.start ++ leBytes 2 a.length ++
    referenceFields a.reference

/-- SWQC (R195). -/
def swqcPayload (tag phase distortion force : Nat) : List Byte :=
  leBytes 2 tag ++ leBytes 2 phase ++ leBytes 2 distortion ++ leBytes 2 force

/-- STKOPEN (R195), the level floor given as a value. -/
def stkopenPayload (k : StackSettings) : List Byte := leBytes 4 k.vp ++ stackSettingsBytes k

/-- The characters of a request frame after its address character: length, kind, payload, check (R168). -/
def requestChars (kind : Byte) (payload : List Byte) : List Byte :=
  (leBytes 2 (1 + payload.length) ++ [kind] ++ payload) ++ checkBytes (leBytes 2 (1 + payload.length) ++ [kind] ++ payload)

/-- The bytes of a line frame between its start code and its check (R197). -/
def lineBody (index : Nat) (samples : List Sample) : List Byte :=
  leBytes 6 index ++ leBytes 1 samples.length ++ samples.flatMap fun d => leBytes 3 d.toNat

/-- A line frame from its start code to its check (R197). -/
def lineBytes (index : Nat) (samples : List Sample) : List Byte :=
  [0x7E#8, 0x81#8] ++ (lineBody index samples ++ checkBytes (lineBody index samples))

end Sys2Proof.Machine
end

