-- ==== Sys2Proof/WellFormed.lean ====
section
/-! DEFINITION. Which commands can reach the part at all. Every meaning is total: a command that is not well formed is still run (log entries 4, 7 and 8). -/

namespace Sys2Proof

/-- A request frame carries at most 1,024 payload bytes (R168, section 11.2). -/
def payloadFits (payload : List Byte) : Bool := decide (payload.length ≤ 1024)

/-- The kinds 0 and 32 to 255 name no request (R195). -/
def unknownKind (kind : Byte) : Bool := kind.toNat == 0 || decide (32 ≤ kind.toNat)

/-- The characters of one whole request frame: two length bytes, then as many bytes as they count and the check (R168). -/
def wholeFrame : List Byte → Bool
  | lo :: hi :: rest => !Machine.lengthInconsistent (Machine.lengthCount lo hi) && rest.length == Machine.lengthCount lo hi + 2
  | _ => false

/-- The start code of a line frame (R197). -/
def lineStart : List Byte := [0x7E#8, 0x81#8]

/-- What a command must satisfy to be one the outside can send. -/
def Instr.wellFormed : Instr → Bool
  | .chmap _ p | .chstate _ p | .acqset _ p | .lnact _ p | .lndeact _ p | .lnconf _ p | .lnreset _ p | .lnpolicy _ p
  | .refopen _ p | .refdata _ p | .refclose _ p | .refclear _ p | .swann _ p | .swcancel _ p | .qcpolicy _ p
  | .swqc _ p | .stkopen _ p | .stkclose _ p | .stkdrop _ p | .oqsize _ p | .rstfull _ p | .rsteng _ p
  | .ntmask _ p => payloadFits p
  | .probe p | .swlist p | .stkinfo p | .oqfetch p | .oqrel p | .status p | .ident p | .ntread p => payloadFits p
  | .unknownRequest _ k p => unknownKind k && payloadFits p
  | .addressCharacter _ => true
  | .characterError => true
  | .inconsistentLength lo hi => Machine.lengthInconsistent (Machine.lengthCount lo hi)
  | .requestFrame chars => wholeFrame chars
  | .answerCompletion => true
  | .powerOnReset _ => true
  | .initIntervalEnd => true
  | .lineFrame _ bytes => bytes.take 2 == lineStart
  | .frameAbsence _ | .wakeTimerExpiry _ | .slipTimerExpiry _ | .retryTimerExpiry _ => true
  | .drainSilenceTimerExpiry _ | .drainLimitTimerExpiry _ => true
  | .grant => true
  | .laneCompletion _ => true
  | .qcWaitExpiry tag => decide (1 ≤ tag) && decide (tag ≤ 65535)
  | .finalizeCompletion vp => decide (1 ≤ vp) && decide (vp ≤ 4294967295)

/-- The payload bytes a request row carries, none for the other rows (R195). -/
def Instr.payload : Instr → List Byte
  | .chmap _ p | .chstate _ p | .acqset _ p | .lnact _ p | .lndeact _ p | .lnconf _ p | .lnreset _ p | .lnpolicy _ p
  | .refopen _ p | .refdata _ p | .refclose _ p | .refclear _ p | .swann _ p | .swcancel _ p | .qcpolicy _ p
  | .swqc _ p | .stkopen _ p | .stkclose _ p | .stkdrop _ p | .oqsize _ p | .rstfull _ p | .rsteng _ p
  | .ntmask _ p => p
  | .probe p | .swlist p | .stkinfo p | .oqfetch p | .oqrel p | .status p | .ident p | .ntread p => p
  | .unknownRequest _ _ p => p
  | .addressCharacter _ | .characterError | .inconsistentLength _ _ | .requestFrame _ | .answerCompletion => []
  | .powerOnReset _ | .initIntervalEnd | .lineFrame _ _ | .frameAbsence _ | .wakeTimerExpiry _ => []
  | .slipTimerExpiry _ | .retryTimerExpiry _ | .drainSilenceTimerExpiry _ | .drainLimitTimerExpiry _ => []
  | .grant | .laneCompletion _ | .qcWaitExpiry _ | .finalizeCompletion _ => []

end Sys2Proof
end

