-- ==== Sys2Proof/Safety.lean ====
section
/-! DEFINITION. The laws the spec says the part keeps at the end of every event, as predicates on State, and what a safe run is: one whose every state meets them. -/

namespace Sys2Proof.Machine

/-! ### Requests -/

/-- A request is about to be taken: it is the oldest of the input queue, the uplink is QUIET and no initialization interval runs
(R172, R182). -/
structure State.Taking (s : State) (r : Request) : Prop where
  outside : s.cmd.initInterval = false
  quiet : s.cmd.uplink = .quiet
  oldest : s.cmd.inputQueue.head? = some r

/-- The command port after a taking: the request has left the queue, and an addressed one is being answered (R172, R174,
R175). -/
def CommandPort.taken (c : CommandPort) (r : Request) (res : Result) (payload : List Byte) : CommandPort :=
  match r.ak with
  | .addressed =>
    { c with
      inputQueue := c.inputQueue.tail
      uplink := .sending { address := c.unitAddress.getD 0, kind := r.kind, result := res, payload := payload } false }
  | .broadcast => { c with inputQueue := c.inputQueue.tail }

/-- A request refused with a result and a payload: no state but the command port's changes, and a refused broadcast is reported
by CMDBADCAST (4.11, R174, R175). -/
def State.refusing (s : State) (r : Request) (res : Result) (payload : List Byte) : State :=
  match r.ak with
  | .addressed => { s with cmd := s.cmd.taken r res payload }
  | .broadcast => State.post { s with cmd := s.cmd.taken r res payload } (.cmdBadCast r.kind (some res))

/-- The request a request row takes, none for the other rows (R195). -/
def requestOf : Instr → Option Request
  | .chmap ak p => some { kind := 1#8, payload := p, ak := ak }
  | .chstate ak p => some { kind := 2#8, payload := p, ak := ak }
  | .probe p => some { kind := 3#8, payload := p, ak := .addressed }
  | .acqset ak p => some { kind := 4#8, payload := p, ak := ak }
  | .lnact ak p => some { kind := 5#8, payload := p, ak := ak }
  | .lndeact ak p => some { kind := 6#8, payload := p, ak := ak }
  | .lnconf ak p => some { kind := 7#8, payload := p, ak := ak }
  | .lnreset ak p => some { kind := 8#8, payload := p, ak := ak }
  | .lnpolicy ak p => some { kind := 9#8, payload := p, ak := ak }
  | .refopen ak p => some { kind := 10#8, payload := p, ak := ak }
  | .refdata ak p => some { kind := 11#8, payload := p, ak := ak }
  | .refclose ak p => some { kind := 12#8, payload := p, ak := ak }
  | .refclear ak p => some { kind := 13#8, payload := p, ak := ak }
  | .swann ak p => some { kind := 14#8, payload := p, ak := ak }
  | .swcancel ak p => some { kind := 15#8, payload := p, ak := ak }
  | .swlist p => some { kind := 16#8, payload := p, ak := .addressed }
  | .qcpolicy ak p => some { kind := 17#8, payload := p, ak := ak }
  | .swqc ak p => some { kind := 18#8, payload := p, ak := ak }
  | .stkopen ak p => some { kind := 19#8, payload := p, ak := ak }
  | .stkclose ak p => some { kind := 20#8, payload := p, ak := ak }
  | .stkdrop ak p => some { kind := 21#8, payload := p, ak := ak }
  | .stkinfo p => some { kind := 22#8, payload := p, ak := .addressed }
  | .oqfetch p => some { kind := 23#8, payload := p, ak := .addressed }
  | .oqrel p => some { kind := 24#8, payload := p, ak := .addressed }
  | .oqsize ak p => some { kind := 25#8, payload := p, ak := ak }
  | .status p => some { kind := 26#8, payload := p, ak := .addressed }
  | .ident p => some { kind := 27#8, payload := p, ak := .addressed }
  | .rstfull ak p => some { kind := 28#8, payload := p, ak := ak }
  | .rsteng ak p => some { kind := 29#8, payload := p, ak := ak }
  | .ntread p => some { kind := 30#8, payload := p, ak := .addressed }
  | .ntmask ak p => some { kind := 31#8, payload := p, ak := ak }
  | .unknownRequest ak k p => some { kind := k, payload := p, ak := ak }
  | .addressCharacter _ | .characterError | .inconsistentLength _ _ | .requestFrame _ | .answerCompletion => none
  | .powerOnReset _ | .initIntervalEnd | .lineFrame _ _ | .frameAbsence _ | .wakeTimerExpiry _ => none
  | .slipTimerExpiry _ | .retryTimerExpiry _ | .drainSilenceTimerExpiry _ | .drainLimitTimerExpiry _ => none
  | .grant | .laneCompletion _ | .qcWaitExpiry _ | .finalizeCompletion _ => none

/-- The entries as the readiness test leaves them against some ports (R63, R64). -/
def readied (ports : Vector Port 4) (entries : List SweepEntry) : List SweepEntry :=
  entries.map fun e => { e with state := readiness ports e }

/-- A map entry whose number may be announced: OPEN or RETRY (R125, condition 7 of R59). -/
def MapEntry.mayAnnounce : MapEntry → Bool
  | .unshot | .retry _ => true
  | .announced _ | .merged _ | .abandoned _ _ => false

/-- The refusal conditions of a SWANN payload in the order of R59: the code of the first that holds. -/
def swannRefusal (s : State) (p : List Byte) : Option Result :=
  let tag := field p 0 2
  let vp := field p 2 4
  let n := field p 6 1
  let start := field p 7 8
  let len := field p 15 2
  let kind := field p 17 1
  let target := field p 18 2
  if tag = 0 ∨ vp = 0 ∨ n = 0 ∨ 32 < n ∨ 281474976710656 ≤ start ∨ len < 256 ∨ 16384 < len ∨ 1 < kind
      ∨ (kind = 0 ∧ 7 < target) ∨ (kind = 1 ∧ 479 < target) ∨ (kind = 1 ∧ 8 < field p 20 1) then some .range
  else if 32 ≤ s.sweeps.length then some .full
  else if ∃ e ∈ s.sweeps, e.tag = tag then some .duplicate
  else
    match s.stackTable.find? fun k => k.settings.vp = vp with
    | none => some .noStack
    | some k =>
      if k.state ≠ .opened then some .state
      else if k.settings.expected < n ∨ 281474976710656 ≤ start + len + k.settings.listen - 2 then some .range
      else if (k.map[n - 1]?).map MapEntry.mayAnnounce ≠ some true then some .duplicate
      else if kind = 0 ∧ (s.slots[target]?).map (·.state) ≠ some .ready then some .noRef
      else if kind = 0 ∧ (s.slots[target]?).map (·.declared) ≠ some (some len) then some .mismatch
      else if kind = 1 ∧ (s.channels[target]?).map (·.state) = some .unmapped then some .noRef
      else
        match s.spreadFront with
        | none => none
        | some f =>
          if start + 65536 ≤ f then some .tooOld else if f + 4194304 < start then some .future else none

/-! ### Capacities -/

/-- The greatest numbers of notices (R187), requests (R171), entries (R56) and stacks (R118), and what a set overflow flag
says of the list (R187). -/
structure State.Bounded (s : State) : Prop where
  notices : s.nq.notices.length ≤ Config.noticeLimit
  overflow : s.nq.overflow = true → s.nq.notices.length = Config.noticeLimit
  requests : s.cmd.inputQueue.length ≤ Config.inputLimit
  entries : s.sweeps.length ≤ Config.sweepLimit
  table : s.stackTable.length ≤ Config.stackLimit

/-! ### Rings and ports -/

/-- The ring of a port holds only indices within one ring's length behind its front, in canonical form (R10, R6). -/
structure Port.RingLaw (x : Port) : Prop where
  form : ringWf x.ring = true
  behind : ∀ c ∈ x.ring, ∃ f, x.front = some f ∧ c.2.tag ≤ f ∧ f < c.2.tag + Config.ringDepth
  front : ∀ f, x.front = some f → f < Config.indexLimit

/-- Which state runs which timer (2.1.1), where a lock candidate and a set chain flag may stand (R19), that a delivering port
has a front (R63), and the widths of the two counts (R19). -/
structure Port.StateLaw (x : Port) : Prop where
  wake : x.wakeTimer.isSome = true ↔ x.state = .waking
  absence : x.absenceTimer.isSome = true ↔ x.state = .locked
  slip : x.slipTimer.isSome = true ↔ x.state = .slipped
  retry : x.retryTimer.isSome = true ↔ x.state = .retryWait
  silence : x.silenceTimer.isSome = true ↔ x.state = .draining
  drain : x.drainTimer.isSome = true ↔ x.state = .draining
  candidate : x.candidate.isSome = true → x.state = .waking
  chain : x.chain = true → x.state = .slipped
  front : x.delivering = true → x.front.isSome = true
  slips : x.slipCount ≤ Config.countLimit
  retries : x.retriesUsed ≤ Config.countLimit

/-- Every port's ring keeps its law. -/
def State.RingsLawful (s : State) : Prop := ∀ p : Fin 4, s.ports[p].RingLaw

/-- Every port keeps its state law. -/
def State.PortsLawful (s : State) : Prop := ∀ p : Fin 4, s.ports[p].StateLaw

/-! ### The initialization interval -/

/-- Nothing is under way: every port OFF, every lane IDLE, no entry, stack, notice or request, the command port DESELECTED and
QUIET (R182). -/
structure State.AtRest (s : State) : Prop where
  ports : ∀ p : Fin 4, s.ports[p].state = .off
  lanes : ∀ l : Fin 4, s.lanes[l].state = .idle
  entries : s.sweeps = []
  table : s.stackTable = []
  notices : s.nq.notices = []
  requests : s.cmd.inputQueue = []
  selection : s.cmd.selection = .deselected
  assembly : s.cmd.assembly = []
  uplink : s.cmd.uplink = .quiet

/-- During the initialization interval the part is at rest (R182). -/
def State.RestsInInterval (s : State) : Prop := s.cmd.initInterval = true → s.AtRest

/-! ### Tags -/

/-- No two entries carry one sweep tag (R56) and no two stacks one VP tag (R118). -/
structure State.TagsDistinct (s : State) : Prop where
  tags : (s.sweeps.map (·.tag)).Nodup
  vps : (s.stackTable.map (·.settings.vp)).Nodup

/-! ### Reference slots -/

/-- The number of listed entries that name a slot (R44). -/
def State.naming (s : State) (i : Fin 8) : Nat := s.sweeps.countP fun e => decide (e.reference = .slot i)

/-- What a slot holds in each of its states (R43). -/
def RefSlot.Held (x : RefSlot) : Prop :=
  match x.state with
  | .empty => x.declared = none ∧ x.samples = []
  | .loading => ∃ n, x.declared = some n ∧ 256 ≤ n ∧ n ≤ 16384 ∧ x.samples.length ≤ n
  | .ready => ∃ n, x.declared = some n ∧ 256 ≤ n ∧ n ≤ 16384 ∧ x.samples.length = n

/-- The law of use counts (R44), the fields of each slot state (R43), and that a slot an entry names is READY with the entry's
length (R51). -/
structure State.SlotsLawful (s : State) : Prop where
  held : ∀ i : Fin 8, s.slots[i].Held
  counted : ∀ i : Fin 8, s.slots[i].useCount = s.naming i
  ready : ∀ i : Fin 8, s.slots[i].state ≠ .ready → s.slots[i].useCount = 0
  bound : ∀ e ∈ s.sweeps, ∀ i, e.reference = .slot i → s.slots[i].state = .ready ∧ s.slots[i].declared = some e.length

/-! ### Lanes and entries -/

/-- The lane state that goes with an entry's state, none for an entry no lane holds (R83). -/
def SweepState.laneState : SweepState → Option LaneState
  | .waiting | .capturing | .ready => none
  | .correlating => some .correlating
  | .qcWait => some .qcWait

/-- An entry is in CORRELATING or QCWAIT exactly when one lane holds it, in the same state (R67, R83); its QC wait timer runs
exactly in QCWAIT (R71), where it has no record, and a stored record says PASS or NOTE (R107). -/
structure State.LanesLawful (s : State) : Prop where
  entry : ∀ e ∈ s.sweeps,
    match e.lane with
    | none => e.state.laneState = none
    | some l => s.lanes[l].held = some e.tag ∧ e.state.laneState = some s.lanes[l].state
  lane : ∀ l : Fin 4,
    match s.lanes[l].held with
    | none => s.lanes[l].state = .idle
    | some t => ∃ e ∈ s.sweeps, e.tag = t ∧ e.lane = some l
  timer : ∀ e ∈ s.sweeps, (e.qcTimer.isSome = true ↔ e.state = .qcWait)
  waits : ∀ e ∈ s.sweeps, e.state = .qcWait → e.qc = none
  record : ∀ e ∈ s.sweeps, ∀ q, e.qc = some q → q.verdict = .pass ∨ q.verdict = .note

/-! ### Sweep maps -/

/-- A map entry in MERGED. -/
def MapEntry.isMerged : MapEntry → Bool
  | .merged _ => true
  | .unshot | .announced _ | .retry _ | .abandoned _ _ => false

/-- A map entry in ABANDONED. -/
def MapEntry.isAbandoned : MapEntry → Bool
  | .abandoned _ _ => true
  | .unshot | .announced _ | .retry _ | .merged _ => false

/-- The counts a stack keeps of its own map (R120). -/
structure Stack.MapLaw (k : Stack) : Prop where
  count : k.map.length = k.settings.expected
  merged : k.merged = k.map.countP MapEntry.isMerged
  abandoned : k.abandoned = k.map.countP MapEntry.isAbandoned
  retries : k.retriesUsed ≤ k.settings.retryLimit

/-- ANNOUNCED map entries and listed entries answer each other (R125); listed entries belong to OPEN or CLOSING stacks (R118);
no stack stands past its completion (R133, R134). -/
structure State.MapsLawful (s : State) : Prop where
  counts : ∀ k ∈ s.stackTable, k.MapLaw
  announced : ∀ k ∈ s.stackTable, ∀ n t,
    k.map[n]? = some (.announced t) ↔ ∃ e ∈ s.sweeps, e.tag = t ∧ e.vp = k.settings.vp ∧ e.number = n + 1
  listed : ∀ e ∈ s.sweeps, 1 ≤ e.number ∧
    ∃ k ∈ s.stackTable, k.settings.vp = e.vp ∧ (k.state = .opened ∨ k.state = .closing)
  opened : ∀ k ∈ s.stackTable, k.state = .opened → k.merged + k.abandoned < k.settings.expected
  closing : ∀ k ∈ s.stackTable, k.state = .closing → ∃ e ∈ s.sweeps, e.vp = k.settings.vp

/-! ### The output queue -/

/-- The law of the capacity (R145), of the reservations (R145), of the held order (R149) and of its service (R150). -/
structure State.OutputLawful (s : State) : Prop where
  capacity : s.oq.used + s.oq.reserved ≤ Config.outputCapacity
  reserved : ∀ k ∈ s.stackTable, k.state = .finalizing →
    s.oq.reservations.filter (fun r => r.vp == k.settings.vp) = [{ vp := k.settings.vp, bytes := k.recordSize }]
  finalizing : ∀ r ∈ s.oq.reservations, ∃ k ∈ s.stackTable, k.settings.vp = r.vp ∧ k.state = .finalizing
  distinct : s.oq.heldOrder.Nodup
  held : ∀ vp, vp ∈ s.oq.heldOrder ↔ ∃ k ∈ s.stackTable, k.settings.vp = vp ∧ k.state = .held
  served : ∀ vp rest, s.oq.heldOrder = vp :: rest → ∃ k ∈ s.stackTable, k.settings.vp = vp ∧ s.oq.free < k.recordSize

/-- The numbers of the records rise by one in list order and the counter holds the number after the last (R146). -/
structure OutputQueue.Numbered (q : OutputQueue) : Prop where
  counter : 1 ≤ q.nextNumber ∧ q.nextNumber ≤ Config.recordLimit
  rising : ∀ i r r', q.records[i]? = some r → q.records[i + 1]? = some r' → r'.number = nextRecordNumber r.number
  last : ∀ r, q.records.getLast? = some r → q.nextNumber = nextRecordNumber r.number

/-! ### Jobs, accumulators and records -/

/-- Every setting lies in its column (R119). -/
structure StackSettings.Lawful (k : StackSettings) : Prop where
  vp : 1 ≤ k.vp ∧ k.vp ≤ 4294967295
  expected : 1 ≤ k.expected ∧ k.expected ≤ 32
  listen : 64 ≤ k.listen ∧ k.listen ≤ 8192
  shift : k.shift ≤ 31
  divWindow : k.divWindow ∈ divWindowList
  floor : k.floor ≤ 31
  retryLimit : k.retryLimit ≤ 7

/-- What the accumulators of a channel of a stack hold after as many merges as the channel's merge count (R121, R129, R130). -/
structure Accumulators.Lawful (a : Accumulators) (k : Stack) : Prop where
  lags : a.numerators.length = k.settings.listen
  windows : a.denominators.length = windowCount k.settings.listen k.settings.divWindow
  merges : a.mergeCount ≤ k.merged
  sums : ∀ n ∈ a.numerators, n.natAbs ≤ a.mergeCount * 2147483647
  weights : ∀ d ∈ a.denominators, (a.mergeCount : Int) ≤ d ∧ d ≤ (a.mergeCount : Int) * 2147483648
  saturated : a.saturatedTotal ≤ a.mergeCount * k.settings.listen

/-- The law of the work in progress: settings in their columns (R119), accumulators as their merges left them (R130), window
ends as R57 forms them, lanes working under their entry's and stack's parameters (R85) and holding their job's result in QCWAIT
(R83, R93), and records of the size they carry (R200). -/
structure State.WorkLawful (s : State) : Prop where
  settings : ∀ k ∈ s.stackTable, k.settings.Lawful
  accumulators : ∀ k ∈ s.stackTable, ∀ c : Fin 480, k.accs[c].Lawful k
  ends : ∀ e ∈ s.sweeps, ∀ k ∈ s.stackTable, k.settings.vp = e.vp →
    e.windowEnd = e.start + e.length + k.settings.listen - 2
  jobs : ∀ e ∈ s.sweeps, ∀ l, e.lane = some l → ∃ k ∈ s.stackTable, k.settings.vp = e.vp ∧
    s.lanes[l].params = some (jobParams e k.settings) ∧ (e.state = .qcWait → s.lanes[l].result = s.lanes[l].jobResult)
  records : ∀ r ∈ s.oq.records, r.content.length = r.size

/-! ### An entry leaves the list -/

/-- The slots once a sweep of a reference is removed: a named slot counts one use less (R44). -/
def releasedSlots (slots : Vector RefSlot 8) : Reference → Vector RefSlot 8
  | .slot i => slots.set i { slots[i] with useCount := slots[i].useCount - 1 }
  | .pilot _ _ => slots

/-- The lanes once the sweep a lane holds, if any, is removed: that lane is IDLE (R72, R74). -/
def freedLanes (lanes : Vector Lane 4) : Option (Fin 4) → Vector Lane 4
  | some l => lanes.set l Lane.reset
  | none => lanes

/-- The state once an entry has left the list: part 3 of a merge (R72), parts 2 and 3 of an abort (R74). -/
def State.withoutSweep (s : State) (e : SweepEntry) : State :=
  { s with
    sweeps := s.sweeps.filter fun x => x.tag != e.tag
    slots := releasedSlots s.slots e.reference
    lanes := freedLanes s.lanes e.lane }

/-! ### Safe runs -/

/-- Every law of the part. -/
structure State.Lawful (s : State) : Prop where
  bounded : s.Bounded
  rings : s.RingsLawful
  ports : s.PortsLawful
  rests : s.RestsInInterval
  tags : s.TagsDistinct
  slots : s.SlotsLawful
  lanes : s.LanesLawful
  maps : s.MapsLawful
  output : s.OutputLawful
  numbers : s.oq.Numbered
  work : s.WorkLawful

/-- A run of k steps is safe when every state it meets is lawful. -/
def SafeRun : Nat → State → Prop
  | 0, s => s.Lawful
  | k + 1, s => s.Lawful ∧ ∃ t, step s = .next t ∧ SafeRun k t

end Sys2Proof.Machine
end

