-- ==== Sys2Proof/Certificates/Slice0/Obligations.lean ====
section
/-! DEFINITION. The statements for the provers. -/

open Sys2Proof Sys2Proof.Machine

/-! ### Steps, resets and the initialization interval -/

/-- Log entry 1: a step runs the command at the front of the queue on the state with the rest of the queue, and idles on an
empty queue. -/
def Obligations.StepRunsTheFrontCommand : Prop :=
  (∀ (c : Instr) (rest : List Instr) (s : State), step { s with pending := c :: rest } = exec c { s with pending := rest }) ∧
  ∀ s : State, s.pending = [] → step s = .next s

/-- R181 with the values of R1, R6, R8, R14, R19, R39, R43, R56, R83, R101, R118, R159, R164, R183 and R193; the waking
interval of a port that has never woken is the model's (log entry 11), and the queue of commands is kept (log entry 1). -/
def Obligations.PowerOnResetSetsEveryBlock : Prop :=
  ∀ (straps : BitVec 6) (s : State), ∃ t, exec (.powerOnReset straps) s = .next t ∧
    (∀ c : Fin 480, t.channels[c] = { station := 0, line := 0, component := .z, polarity := .normal, state := .unmapped }) ∧
    t.interval = .two ∧
    (∀ p : Fin 4, t.ports[p] =
      { state := .off, slipCount := 0, retriesUsed := 0, candidate := none, chain := false, wakeTimer := none
        absenceTimer := none, slipTimer := none, retryTimer := none, silenceTimer := none, drainTimer := none
        policy := { slipLimit := 64, slipThreshold := 0, faultMode := .retry, retryWait := 1000, retryLimit := some 3 }
        wakeInterval := t.ports[p].wakeInterval, front := none, ring := [] }) ∧
    (∀ i : Fin 8, t.slots[i] = { state := .empty, declared := none, samples := [], useCount := 0 }) ∧
    t.sweeps = [] ∧
    (∀ l : Fin 4, t.lanes[l] =
      { state := .idle, held := none, params := none, snapshot := [], reference := [], clipCount := 0, window := []
        result := [] }) ∧
    t.qcPolicy =
      { phaseLimit := 8, phaseAction := .note, distortionLimit := 30, distortionAction := .note, forceFloor := 60
        forceAction := .retry, required := false, waitLimit := 4000, timeoutAction := .merge } ∧
    t.stackTable = [] ∧
    t.oq =
      { records := [], reservations := [], heldOrder := [], nextNumber := 1, readPosition := 0, effectiveBlock := 4096
        pendingBlock := 4096 } ∧
    t.nq = { notices := [], overflow := false, mask := 64#7 } ∧
    t.cmd =
      { unitAddress := if straps = 0#6 ∨ straps = 63#6 then none else some straps.toNat, selection := .deselected
        assembly := [], inputQueue := [], uplink := .quiet, initInterval := true } ∧
    t.pending = s.pending

/-- R182: the end of the interval leaves the command port DESELECTED, empty and QUIET; R174: the answer completion leaves
the uplink QUIET. Both change nothing else. -/
def Obligations.IntervalEndAndAnswerCompletion : Prop :=
  (∀ s : State, s.cmd.initInterval = true → exec .initIntervalEnd s =
    .next { s with
      cmd := { s.cmd with selection := .deselected, assembly := [], inputQueue := [], uplink := .quiet, initInterval := false } }) ∧
  ∀ (s : State) (a : Answer), s.cmd.uplink = .sending a false →
    exec .answerCompletion s = .next { s with cmd := { s.cmd with uplink := .quiet } }

/-- R182: while the interval runs and the part is at rest, no event but a power-on reset and the interval's end changes
anything. -/
def Obligations.NothingChangesInTheInterval : Prop :=
  ∀ (c : Instr) (s : State), s.cmd.initInterval = true → s.AtRest → (∀ straps, c ≠ .powerOnReset straps) →
    c ≠ .initIntervalEnd → exec c s = .next s

/-- R179: an addressed RSTFULL is answered OK and resets the part at its answer completion, a broadcast one at once; the unit
address and the record number counter are kept. The waking interval of a port that has never woken is the model's (log entry 11),
and the queue of commands is kept (log entry 1). -/
def Obligations.FullResetAtOnceOrAfterTheAnswer : Prop :=
  let reset (s : State) : State :=
    { State.reset with
      oq := { State.reset.oq with nextNumber := s.oq.nextNumber }
      cmd := { State.reset.cmd with unitAddress := s.cmd.unitAddress }, pending := s.pending }
  (∀ s : State, s.Taking { kind := 28#8, payload := [], ak := .addressed } → exec (.rstfull .addressed []) s =
    .next { s with
      cmd := { s.cmd with
        inputQueue := s.cmd.inputQueue.tail
        uplink := .sending { address := s.cmd.unitAddress.getD 0, kind := 28#8, result := .ok, payload := [] } true } }) ∧
  (∀ s : State, s.Taking { kind := 28#8, payload := [], ak := .broadcast } →
    exec (.rstfull .broadcast []) s = .next (reset s)) ∧
  ∀ (s : State) (a : Answer), s.cmd.uplink = .sending a true → exec .answerCompletion s = .next (reset s)

/-- R180 with R55, R100, R164, R183 and R193: the engine reset empties the engines and keeps configuration, ports and ring; an
addressed RSTENG is then answered OK. -/
def Obligations.EngineResetKeepsConfigurationPortsAndRing : Prop :=
  ∀ (s : State) (ak : AddressKind), s.Taking { kind := 29#8, payload := [], ak := ak } → ∃ t,
    exec (.rsteng ak []) s = .next t ∧
    t.channels = s.channels ∧ t.interval = s.interval ∧ t.ports = s.ports ∧ t.qcPolicy = s.qcPolicy ∧
    t.pending = s.pending ∧ t.sweeps = [] ∧ t.stackTable = [] ∧ (∀ l : Fin 4, t.lanes[l] = Lane.reset) ∧
    (∀ i : Fin 8, t.slots[i] =
      if s.slots[i].state = .ready then { s.slots[i] with useCount := 0 }
      else { state := .empty, declared := none, samples := [], useCount := 0 }) ∧
    t.oq =
      { records := [], reservations := [], heldOrder := [], nextNumber := s.oq.nextNumber, readPosition := 0
        effectiveBlock := s.oq.pendingBlock, pendingBlock := s.oq.pendingBlock } ∧
    t.nq = { notices := [], overflow := false, mask := s.nq.mask } ∧
    t.cmd =
      CommandPort.taken { s.cmd with selection := .deselected, assembly := [], inputQueue := [] }
        { kind := 29#8, payload := [], ak := ak } .ok []

/-! ### Laws every step keeps -/

/-- R56, R118, R171, R187: no list outgrows its capacity, and a set overflow flag means a full notice list. -/
def Obligations.EveryStepKeepsTheCapacities : Prop :=
  ∀ s t : State, s.Bounded → step s = .next t → t.Bounded

/-- R10: every index in a port's ring lies at or below its front and less than 65,536 behind it, in the canonical form. -/
def Obligations.EveryStepKeepsTheRingLaw : Prop :=
  ∀ s t : State, s.RingsLawful → step s = .next t → t.RingsLawful

/-- R19, 2.1.1, R63: each timer runs in its states alone, a lock candidate stands in WAKING alone, a chain flag in SLIPPED
alone, and a delivering port has a front. -/
def Obligations.EveryStepKeepsThePortLaw : Prop :=
  ∀ s t : State, s.PortsLawful → step s = .next t → t.PortsLawful

/-- R182: whenever the initialization interval runs, the part is at rest. -/
def Obligations.EveryStepKeepsTheIntervalAtRest : Prop :=
  ∀ s t : State, s.RestsInInterval → step s = .next t → t.RestsInInterval

/-- R56, R118: sweep tags of listed entries and VP tags of stacks stay distinct. -/
def Obligations.EveryStepKeepsTagsDistinct : Prop :=
  ∀ s t : State, s.TagsDistinct → step s = .next t → t.TagsDistinct

/-- R43, R44, R51: use counts count the listed entries, are 0 outside READY, and a named slot stays READY with the entry's
length. -/
def Obligations.EveryStepKeepsTheSlotLaw : Prop :=
  ∀ s t : State, s.TagsDistinct → s.SlotsLawful → step s = .next t → t.SlotsLawful

/-- R67, R71, R83, R107: lanes and entries hold each other in the same state. -/
def Obligations.EveryStepKeepsTheLaneLaw : Prop :=
  ∀ s t : State, s.TagsDistinct → s.LanesLawful → step s = .next t → t.LanesLawful

/-- R120, R125, R133, R134: the sweep maps, their counts and the sweep list agree. The output law is a premise for its held order:
one that named an OPEN stack would be served (R150). -/
def Obligations.EveryStepKeepsTheSweepMapLaw : Prop :=
  ∀ s t : State, s.TagsDistinct → s.OutputLawful → s.MapsLawful → step s = .next t → t.MapsLawful

/-- R145, R149, R150: used and reserved space never exceed the capacity, and the first held stack does not fit. -/
def Obligations.EveryStepKeepsTheOutputLaw : Prop :=
  ∀ s t : State, s.TagsDistinct → s.OutputLawful → step s = .next t → t.OutputLawful

/-- R146: record numbers rise by one in list order, and the counter holds the next. -/
def Obligations.EveryStepKeepsRecordNumbersRising : Prop :=
  ∀ s t : State, s.oq.Numbered → step s = .next t → t.oq.Numbered

/-- State.reset meets every law (its unit address is the model's choice, log entry 3, and no law reads it). -/
def Obligations.ResetIsLawful : Prop := State.reset.Lawful

/-- R10: a present sample of a channel lies at most its port's front and less than 65,536 behind it. -/
def Obligations.PresentSamplesLieWithinOneRingOfTheFront : Prop :=
  ∀ (s : State) (c : Fin 480) (i : Nat) (d : Sample), s.RingsLawful → s.sample c i = some d →
    ∃ f, s.ports[channelPort c].front = some f ∧ i ≤ f ∧ f < i + 65536

/-! ### Requests in general -/

/-- 4.11: an addressed request answered with any result but OK changes nothing but the command port. R175: the same request
received broadcast is refused with the same result; it leaves the input queue, posts the one notice that reports it, and changes
nothing else. -/
def Obligations.RefusedRequestsChangeNothing : Prop :=
  (∀ (i : Instr) (r : Request) (s t : State) (a : Answer) (b : Bool), requestOf i = some r → r.ak = .addressed → s.Taking r →
    exec i s = .next t → t.cmd.uplink = .sending a b → a.result ≠ .ok → t = { s with cmd := t.cmd }) ∧
  ∀ (i j : Instr) (r : Request) (s t : State) (a : Answer) (b : Bool), requestOf i = some { r with ak := .addressed } →
    requestOf j = some { r with ak := .broadcast } → (∀ ak k p, j ≠ .unknownRequest ak k p) →
    s.Taking { r with ak := .addressed } → exec i s = .next t → t.cmd.uplink = .sending a b → a.result ≠ .ok →
    let heard : State :=
      { s with cmd := { s.cmd with inputQueue := { r with ak := .broadcast } :: s.cmd.inputQueue.tail } }
    exec j heard = .next (State.post { s with cmd := { s.cmd with inputQueue := s.cmd.inputQueue.tail } }
      (if r.kind = 14#8 ∧ a.result ≠ .badLen then .annRefused (field r.payload 0 2) a.result
        else if r.kind = 19#8 ∧ a.result ≠ .badLen then .stkRefused (field r.payload 0 4) a.result
        else .cmdBadCast r.kind (some a.result)))

/-- R173, R175, R195: a request of unknown kind is refused UNKNOWN, and one whose payload does not suit its kind BADLEN,
addressed by an answer and broadcast by CMDBADCAST. That an NTMASK refused BADLEN is answered without its mask and count, as every
other request is, is the model's reading (log entry 26). -/
def Obligations.UnknownKindsAndBadLengthsAreRefused : Prop :=
  (∀ (s : State) (ak : AddressKind) (k : Byte) (p : List Byte), s.Taking { kind := k, payload := p, ak := ak } →
    k.toNat = 0 ∨ 32 ≤ k.toNat →
    exec (.unknownRequest ak k p) s = .next (s.refusing { kind := k, payload := p, ak := ak } .unknown [])) ∧
  ∀ (i : Instr) (r : Request) (s : State), requestOf i = some r → 1 ≤ r.kind.toNat → r.kind.toNat ≤ 31 →
    payloadSuits r.kind r.payload = false → s.Taking r → (∀ ak k p, i ≠ .unknownRequest ak k p) →
    exec i s = .next (s.refusing r .badLen [])

/-- R12, R13, R80, R142, R160, R177, R178: the reading requests answer and change nothing but the command port, and where a PROBE is
refused RANGE. A PROBE at 2^48 and
above (log entry 15), the floor of a DEFAULT in STKINFO (log entry 18) and the address of a part without one in IDENT (log entry
23) are the model's choices. -/
def Obligations.ReadingRequestsAnswerAndChangeNothing : Prop :=
  (∀ (s : State) (c : Fin 480) (first count : Nat), first < 18446744073709551616 → 1 ≤ count → count ≤ 256 →
    s.Taking { kind := 3#8, payload := probePayload c.val first count, ak := .addressed } →
    exec (.probe (probePayload c.val first count)) s = .next { s with
      cmd := s.cmd.taken { kind := 3#8, payload := probePayload c.val first count, ak := .addressed } .ok
        (leBytes 2 c.val ++ indexBytes s.ports[channelPort c].front ++ leBytes 8 first ++ leBytes 2 count ++
          (List.range count).flatMap fun j => probeSample (s.sample c (first + j))) }) ∧
  (∀ (s : State) (p : List Byte), p.length = 12 → s.Taking { kind := 3#8, payload := p, ak := .addressed } →
    479 < field p 0 2 ∨ field p 10 2 = 0 ∨ 256 < field p 10 2 →
    exec (.probe p) s = .next (s.refusing { kind := 3#8, payload := p, ak := .addressed } .range [])) ∧
  (∀ s : State, s.Taking { kind := 16#8, payload := [], ak := .addressed } → exec (.swlist []) s = .next { s with
    cmd := s.cmd.taken { kind := 16#8, payload := [], ak := .addressed } .ok
      ([byteOf s.sweeps.length] ++ s.sweeps.flatMap fun e =>
        leBytes 2 e.tag ++ leBytes 4 e.vp ++ leBytes 1 e.number ++ leBytes 8 e.start ++
          [codeByte sweepStateList e.state, (e.lane.map fun l => byteOf l.val).getD 0xFF#8]) }) ∧
  (∀ (s : State) (vp : Nat) (k : Stack), 1 ≤ vp → vp < 4294967296 → s.findStack vp = some k →
    s.Taking { kind := 22#8, payload := leBytes 4 vp, ak := .addressed } → exec (.stkinfo (leBytes 4 vp)) s = .next { s with
      cmd := s.cmd.taken { kind := 22#8, payload := leBytes 4 vp, ak := .addressed } .ok (stackInfo s k) }) ∧
  (∀ s : State, s.Taking { kind := 23#8, payload := [], ak := .addressed } → exec (.oqfetch []) s = .next { s with
    cmd := s.cmd.taken { kind := 23#8, payload := [], ak := .addressed } .ok (fetchAnswer s.oq) }) ∧
  (∀ s : State, s.Taking { kind := 26#8, payload := [], ak := .addressed } → exec (.status []) s = .next { s with
    cmd := s.cmd.taken { kind := 26#8, payload := [], ak := .addressed } .ok (statusAnswer s) }) ∧
  ∀ s : State, s.Taking { kind := 27#8, payload := [], ak := .addressed } → exec (.ident []) s = .next { s with
    cmd := s.cmd.taken { kind := 27#8, payload := [], ak := .addressed } .ok
      (leBytes 2 480 ++ leBytes 1 2 ++ leBytes 1 (s.cmd.unitAddress.getD 0) ++ leBytes 2 480 ++ leBytes 1 4 ++ leBytes 1 4 ++
        leBytes 1 8 ++ leBytes 1 8 ++ leBytes 1 32 ++ leBytes 4 65536 ++ leBytes 4 67108864) }

/-! ### Channels and settings -/

/-- R2, R3: a taken CHMAP writes its descriptions into its run of channels and changes nothing else; it is refused RANGE for a
field, a run or a description outside its values, then BUSY while a stack exists. -/
def Obligations.ChmapWritesItsRunOfChannels : Prop :=
  (∀ (s : State) (ak : AddressKind) (port first : Nat) (ds : List ChannelEntry),
    s.Taking { kind := 1#8, payload := chmapPayload port first ds, ak := ak } → port ≤ 3 → 1 ≤ ds.length →
    first + ds.length ≤ 120 → s.stackTable = [] → (∀ d ∈ ds, d.station < 4294967296 ∧ d.line < 65536) →
    ∃ t, exec (.chmap ak (chmapPayload port first ds)) s = .next t ∧
      t = { s with
        channels := t.channels, cmd := s.cmd.taken { kind := 1#8, payload := chmapPayload port first ds, ak := ak } .ok [] } ∧
      ∀ c : Fin 480, t.channels[c] =
        if 120 * port + first ≤ c.val ∧ c.val < 120 * port + first + ds.length then
          ds.getD (c.val - (120 * port + first)) s.channels[c]
        else s.channels[c]) ∧
  ∀ (s : State) (ak : AddressKind) (p : List Byte), p.length = 3 + 7 * field p 2 1 →
    s.Taking { kind := 1#8, payload := p, ak := ak } →
    let bad : Prop :=
      3 < field p 0 1 ∨ 119 < field p 1 1 ∨ field p 2 1 = 0 ∨ 120 < field p 2 1 ∨ 120 < field p 1 1 + field p 2 1 ∨
        ∃ j, j < field p 2 1 ∧ (field p (9 + 7 * j) 1 % 4 = 3 ∨ 24 ≤ field p (9 + 7 * j) 1)
    (bad → exec (.chmap ak p) s = .next (s.refusing { kind := 1#8, payload := p, ak := ak } .range [])) ∧
    (¬ bad → s.stackTable ≠ [] →
      exec (.chmap ak p) s = .next (s.refusing { kind := 1#8, payload := p, ak := ak } .busy []))

/-- R4: a taken CHSTATE sets the state of its run of channels, keeps their other fields, and changes nothing else; it is refused
RANGE for a field or a run outside its values. -/
def Obligations.ChstateSetsStatesAlone : Prop :=
  (∀ (s : State) (ak : AddressKind) (first count : Nat) (st : ChannelState),
    s.Taking { kind := 2#8, payload := chstatePayload first count st, ak := ak } → 1 ≤ count → first + count ≤ 480 →
    ∃ t, exec (.chstate ak (chstatePayload first count st)) s = .next t ∧
      t = { s with
        channels := t.channels, cmd := s.cmd.taken { kind := 2#8, payload := chstatePayload first count st, ak := ak } .ok [] } ∧
      ∀ c : Fin 480, t.channels[c] =
        if first ≤ c.val ∧ c.val < first + count then { s.channels[c] with state := st } else s.channels[c]) ∧
  ∀ (s : State) (ak : AddressKind) (p : List Byte), p.length = 5 → s.Taking { kind := 2#8, payload := p, ak := ak } →
    479 < field p 0 2 ∨ field p 2 2 = 0 ∨ 480 < field p 2 2 ∨ 2 < field p 4 1 ∨ 480 < field p 0 2 + field p 2 2 →
    exec (.chstate ak p) s = .next (s.refusing { kind := 2#8, payload := p, ak := ak } .range [])

/-- R14, R15, R39, R102, R162: ACQSET, LNPOLICY, QCPOLICY and OQSIZE, taken, write their setting and change nothing else; each is
refused RANGE for a code outside its column, and ACQSET then BUSY with a port out of OFF or a listed sweep. -/
def Obligations.SettingRequestsWriteTheirSetting : Prop :=
  (∀ (s : State) (ak : AddressKind) (d : SampleInterval),
    s.Taking { kind := 4#8, payload := [codeByte intervalList d], ak := ak } → (∀ p : Fin 4, s.ports[p].state = .off) →
    s.sweeps = [] → exec (.acqset ak [codeByte intervalList d]) s = .next { s with
      interval := d, cmd := s.cmd.taken { kind := 4#8, payload := [codeByte intervalList d], ak := ak } .ok [] }) ∧
  (∀ (s : State) (ak : AddressKind) (p : Fin 4) (pol : LinePolicy),
    s.Taking { kind := 9#8, payload := lnpolicyPayload p.val pol, ak := ak } → pol.slipLimit ∈ slipLimitList →
    pol.slipThreshold ≤ 15 → pol.retryWait ∈ retryWaitList → pol.retryLimit ∈ retryLimitList →
    exec (.lnpolicy ak (lnpolicyPayload p.val pol)) s = .next { s with
      ports := s.ports.set p { s.ports[p] with policy := pol }
      cmd := s.cmd.taken { kind := 9#8, payload := lnpolicyPayload p.val pol, ak := ak } .ok [] }) ∧
  (∀ (s : State) (ak : AddressKind) (q : QcPolicy), s.Taking { kind := 17#8, payload := qcPolicyBytes q, ak := ak } →
    q.phaseLimit ∈ phaseLimitList → q.distortionLimit ∈ distortionLimitList → q.forceFloor ∈ forceFloorList →
    q.waitLimit ∈ waitLimitList → exec (.qcpolicy ak (qcPolicyBytes q)) s = .next { s with
      qcPolicy := q, cmd := s.cmd.taken { kind := 17#8, payload := qcPolicyBytes q, ak := ak } .ok (qcPolicyBytes q) }) ∧
  (∀ (s : State) (ak : AddressKind) (b : Nat), s.Taking { kind := 25#8, payload := [codeByte blockSizeList b], ak := ak } →
    b ∈ blockSizeList → exec (.oqsize ak [codeByte blockSizeList b]) s = .next { s with
      oq := { s.oq with pendingBlock := b }
      cmd := s.cmd.taken { kind := 25#8, payload := [codeByte blockSizeList b], ak := ak } .ok
        [codeByte blockSizeList s.oq.effectiveBlock, codeByte blockSizeList b] }) ∧
  (∀ (s : State) (ak : AddressKind) (b : Byte), s.Taking { kind := 4#8, payload := [b], ak := ak } →
    (4 < b.toNat → exec (.acqset ak [b]) s = .next (s.refusing { kind := 4#8, payload := [b], ak := ak } .range [])) ∧
    (b.toNat ≤ 4 → (∃ p : Fin 4, s.ports[p].state ≠ .off) ∨ s.sweeps ≠ [] →
      exec (.acqset ak [b]) s = .next (s.refusing { kind := 4#8, payload := [b], ak := ak } .busy []))) ∧
  (∀ (s : State) (ak : AddressKind) (p : List Byte), p.length = 6 → s.Taking { kind := 9#8, payload := p, ak := ak } →
    3 < field p 0 1 ∨ 7 < field p 1 1 ∨ 15 < field p 2 1 ∨ 2 < field p 3 1 ∨ 5 < field p 4 1 ∨ 6 < field p 5 1 →
    exec (.lnpolicy ak p) s = .next (s.refusing { kind := 9#8, payload := p, ak := ak } .range [])) ∧
  (∀ (s : State) (ak : AddressKind) (p : List Byte), p.length = 9 → s.Taking { kind := 17#8, payload := p, ak := ak } →
    7 < field p 0 1 ∨ 3 < field p 1 1 ∨ 6 < field p 2 1 ∨ 3 < field p 3 1 ∨ 7 < field p 4 1 ∨ 3 < field p 5 1 ∨
      1 < field p 6 1 ∨ 6 < field p 7 1 ∨ 2 < field p 8 1 →
    exec (.qcpolicy ak p) s =
      .next (s.refusing { kind := 17#8, payload := p, ak := ak } .range (qcPolicyBytes s.qcPolicy))) ∧
  ∀ (s : State) (ak : AddressKind) (b : Byte), s.Taking { kind := 25#8, payload := [b], ak := ak } → 3 < b.toNat →
    exec (.oqsize ak [b]) s = .next (s.refusing { kind := 25#8, payload := [b], ak := ak } .range [])

/-! ### Ports -/

/-- 2.6.4 with R24, R35, R37, R38: what the four line requests do in each activation state, the readiness test of R64 among
it, where they are refused STATE, and RANGE for a port above 3. That the test follows a change of the activation state alone is the
model's reading (log entry 10), and so is the field that latches the interval (log entry 11). -/
def Obligations.LineRequestsByActivationState : Prop :=
  (∀ (s : State) (ak : AddressKind) (p : Fin 4),
    let pay : List Byte := [byteOf p.val]
    let quiet : Port :=
      { s.ports[p] with
        candidate := none, chain := false, wakeTimer := none, absenceTimer := none, slipTimer := none, retryTimer := none
        silenceTimer := none, drainTimer := none }
    let moved (kind : Byte) (x : Port) : State :=
      { s with
        ports := s.ports.set p x, sweeps := readied (s.ports.set p x) s.sweeps
        cmd := s.cmd.taken { kind := kind, payload := pay, ak := ak } .ok [] }
    (s.Taking { kind := 5#8, payload := pay, ak := ak } →
      (s.ports[p].state = .off ∨ s.ports[p].state = .retryWait → exec (.lnact ak pay) s =
        .next (moved 5#8 { quiet with
          state := .waking, slipCount := 0, retriesUsed := 0, wakeTimer := some 2000, wakeInterval := s.interval })) ∧
      (s.ports[p].state = .waking →
        exec (.lnact ak pay) s = .next { s with cmd := s.cmd.taken { kind := 5#8, payload := pay, ak := ak } .ok [] }) ∧
      (s.ports[p].state ∈ [.locked, .slipped, .draining, .parked, .fault] →
        exec (.lnact ak pay) s = .next (s.refusing { kind := 5#8, payload := pay, ak := ak } .state []))) ∧
    (s.Taking { kind := 6#8, payload := pay, ak := ak } →
      (s.ports[p].state ∈ [.waking, .locked, .slipped] → exec (.lndeact ak pay) s =
        .next (moved 6#8 { quiet with state := .draining, silenceTimer := some 20, drainTimer := some 40 })) ∧
      (s.ports[p].state ∈ [.off, .draining, .parked, .retryWait, .fault] →
        exec (.lndeact ak pay) s = .next (s.refusing { kind := 6#8, payload := pay, ak := ak } .state []))) ∧
    (s.Taking { kind := 7#8, payload := pay, ak := ak } →
      (s.ports[p].state = .parked → exec (.lnconf ak pay) s = .next (moved 7#8 { s.ports[p] with state := .off })) ∧
      (s.ports[p].state ≠ .parked →
        exec (.lnconf ak pay) s = .next (s.refusing { kind := 7#8, payload := pay, ak := ak } .state []))) ∧
    (s.Taking { kind := 8#8, payload := pay, ak := ak } →
      (s.ports[p].state ≠ .off → exec (.lnreset ak pay) s =
        .next (moved 8#8 { quiet with state := .off, slipCount := 0, retriesUsed := 0 })) ∧
      (s.ports[p].state = .off → exec (.lnreset ak pay) s = .next { s with
        ports := s.ports.set p { quiet with state := .off, slipCount := 0, retriesUsed := 0 }
        cmd := s.cmd.taken { kind := 8#8, payload := pay, ak := ak } .ok [] }))) ∧
  ∀ (s : State) (ak : AddressKind) (b : Byte), 3 < b.toNat →
    let refused (kind : Byte) : State := s.refusing { kind := kind, payload := [b], ak := ak } .range []
    (s.Taking { kind := 5#8, payload := [b], ak := ak } → exec (.lnact ak [b]) s = .next (refused 5#8)) ∧
    (s.Taking { kind := 6#8, payload := [b], ak := ak } → exec (.lndeact ak [b]) s = .next (refused 6#8)) ∧
    (s.Taking { kind := 7#8, payload := [b], ak := ak } → exec (.lnconf ak [b]) s = .next (refused 7#8)) ∧
    (s.Taking { kind := 8#8, payload := [b], ak := ak } → exec (.lnreset ak [b]) s = .next (refused 8#8))

/-- R21, R197: a body is read as a valid frame exactly when it is the index, the slot count, that many samples and their good
check, with 1 to 120 slots. -/
def Obligations.ValidFramesAreReadExactly : Prop :=
  ∀ (body : List Byte) (f : LineFrame), readLineFrame body = some f ↔
    f.index < 281474976710656 ∧ 1 ≤ f.samples.length ∧ f.samples.length ≤ 120 ∧
      body = lineBody f.index f.samples ++ checkBytes (lineBody f.index f.samples)

/-- R23: a frame received in OFF, PARKED, RETRYWAIT or FAULT has no effect, and in DRAINING it only restarts the drain silence
timer. -/
def Obligations.FramesOutsideActivationAreDiscarded : Prop :=
  ∀ (s : State) (p : Fin 4) (body : List Byte),
    (s.ports[p].state ∈ [.off, .parked, .retryWait, .fault] → exec (.lineFrame p ([0x7E#8, 0x81#8] ++ body)) s = .next s) ∧
    (s.ports[p].state = .draining → exec (.lineFrame p ([0x7E#8, 0x81#8] ++ body)) s =
      .next { s with ports := s.ports.set p { s.ports[p] with silenceTimer := some 20 } })

/-- R25: the four rows of the locking table, the lock event handed to the sweep list with its write. That LNLOCK comes before the
hand-off is the model's reading (log entry 9), and so is the field of the latched interval (log entry 11). -/
def Obligations.WakingFramesSeekALock : Prop :=
  ∀ (s : State) (p : Fin 4) (body : List Byte), s.ports[p].state = .waking →
    let cand (c : Option Nat) : State := { s with ports := s.ports.set p { s.ports[p] with candidate := c } }
    let ev := exec (.lineFrame p ([0x7E#8, 0x81#8] ++ body)) s
    (readLineFrame body = none → ev = .next (cand none)) ∧
    ∀ f : LineFrame, readLineFrame body = some f →
      ((∃ g, s.ports[p].front = some g ∧ f.index ≤ g) → ev = .next (cand none)) ∧
      ((∀ g, s.ports[p].front = some g → g < f.index) →
        (s.ports[p].candidate.map (· + 1) ≠ some f.index → ev = .next (cand (some f.index))) ∧
        (s.ports[p].candidate.map (· + 1) = some f.index → ev = .next (State.handOff
          (State.post
            { s with
              ports := s.ports.set p
                { s.ports[p] with
                  state := .locked, candidate := none, chain := false, wakeTimer := none
                  absenceTimer := some (absenceMs s.ports[p].wakeInterval), slipTimer := none, retryTimer := none
                  silenceTimer := none, drainTimer := none, front := some f.index
                  ring := ringWrite s.ports[p].ring s.ports[p].front f.index f.samples } }
            (.lnLock p .wake)) s p (some f.index))))

/-- R27, R28, R29: in LOCKED a frame in sequence is written; every other frame, and frame absence, is a slip event, whose
threshold test runs fault handling. That the port's own notices and fault handling come before the hand-off, and when there is one,
is the model's reading (log entries 9 and 10), and so is the field of the latched interval (log entry 11). -/
def Obligations.LockedFramesFollowOrSlip : Prop :=
  ∀ (s : State) (p : Fin 4), s.ports[p].state = .locked →
    let written (x : Port) (f : LineFrame) : Port :=
      { x with ring := ringWrite x.ring x.front f.index f.samples, front := some f.index }
    let slipped : Port :=
      { s.ports[p] with
        state := .slipped, slipCount := min (s.ports[p].slipCount + 1) 65535, candidate := none, chain := false
        wakeTimer := none, absenceTimer := none, slipTimer := some s.ports[p].policy.slipLimit, retryTimer := none
        silenceTimer := none, drainTimer := none }
    let noticed : State :=
      State.post { s with ports := s.ports.set p slipped } (.lnSlip p (min (s.ports[p].slipCount + 1) 65535))
    let tested (x : State) (i : Option Nat) : State :=
      State.handOff
        (if s.ports[p].policy.slipThreshold ≠ 0 ∧ s.ports[p].policy.slipThreshold ≤ min (s.ports[p].slipCount + 1) 65535 then
          x.handleFault p .slipCount else x) s p i
    (s.ports[p].absenceTimer.isSome = true → exec (.frameAbsence p) s = .next (tested noticed none)) ∧
    ∀ body : List Byte,
      let ev := exec (.lineFrame p ([0x7E#8, 0x81#8] ++ body)) s
      (readLineFrame body = none → ev = .next (tested noticed none)) ∧
      ∀ (f : LineFrame) (g : Nat), readLineFrame body = some f → s.ports[p].front = some g →
        (f.index = g + 1 → ev = .next (State.handOff
          { s with
            ports := s.ports.set p
              { written s.ports[p] f with absenceTimer := some (absenceMs s.ports[p].wakeInterval) } } s p (some f.index))) ∧
        (f.index ≤ g → ev = .next (tested noticed none)) ∧
        (g + 1 < f.index → ev = .next (tested
          { noticed with ports := s.ports.set p { written slipped f with chain := true } } (some f.index)))

/-- R30: the five rows of the table for a slipped line. That LNLOCK comes before the hand-off is the model's reading (log entry 9),
and so are when there is one (log entry 10) and the field of the latched interval (log entry 11). -/
def Obligations.SlippedFramesRecoverOrWrite : Prop :=
  ∀ (s : State) (p : Fin 4) (body : List Byte), s.ports[p].state = .slipped →
    let chained (b : Bool) : State := { s with ports := s.ports.set p { s.ports[p] with chain := b } }
    let ev := exec (.lineFrame p ([0x7E#8, 0x81#8] ++ body)) s
    (readLineFrame body = none → ev = .next (chained false)) ∧
    ∀ (f : LineFrame) (g : Nat), readLineFrame body = some f → s.ports[p].front = some g →
      let written : Port :=
        { s.ports[p] with ring := ringWrite s.ports[p].ring s.ports[p].front f.index f.samples, front := some f.index }
      (f.index ≤ g → ev = .next (chained false)) ∧
      (f.index = g + 1 ∧ s.ports[p].chain = true → ev = .next (State.handOff
        (State.post
          { s with
            ports := s.ports.set p
              { written with
                state := .locked, candidate := none, chain := false, wakeTimer := none
                absenceTimer := some (absenceMs s.ports[p].wakeInterval), slipTimer := none, retryTimer := none
                silenceTimer := none, drainTimer := none } }
          (.lnLock p .slip)) s p (some f.index))) ∧
      (g < f.index ∧ (g + 1 < f.index ∨ s.ports[p].chain = false) → ev = .next (State.handOff
        { s with ports := s.ports.set p { written with chain := true } } s p (some f.index)))

/-- R26, R31 to R34: what fault handling does under each mode for each of the three causes, SLIPCOUNT among them; the expiry of the
wake or slip timer runs it under the port's mode, handed to the sweep list. That LNFAULT comes before the hand-off, and that there is
none where the activation state is kept, is the model's reading (log entries 9 and 10). -/
def Obligations.WakeAndSlipExpiriesRunFaultHandling : Prop :=
  (∀ (s : State) (p : Fin 4) (c : FaultCause),
    let quiet : Port :=
      { s.ports[p] with
        candidate := none, chain := false, wakeTimer := none, absenceTimer := none, slipTimer := none, retryTimer := none
        silenceTimer := none, drainTimer := none }
    let latched : State := State.post { s with ports := s.ports.set p { quiet with state := .fault } } (.lnFault p c .latched)
    let used := min (s.ports[p].retriesUsed + 1) 65535
    let more := ∀ n, s.ports[p].policy.retryLimit = some n → s.ports[p].retriesUsed < n
    (s.ports[p].policy.faultMode = .latch → s.handleFault p c = latched) ∧
    (s.ports[p].policy.faultMode = .retry ∧ ¬ more → s.handleFault p c = latched) ∧
    (s.ports[p].policy.faultMode = .retry ∧ more → s.handleFault p c = State.post
      { s with
        ports := s.ports.set p
          { quiet with state := .retryWait, retriesUsed := used, retryTimer := some s.ports[p].policy.retryWait } }
      (.lnFault p c (.retrying used))) ∧
    (s.ports[p].policy.faultMode = .report → s.handleFault p c = State.post
      { s with
        ports := s.ports.set p
          { s.ports[p] with
            wakeTimer := if c = .noWake then some 2000 else s.ports[p].wakeTimer
            slipCount := if c = .slipCount then 0 else s.ports[p].slipCount
            slipTimer := if c = .slipTime then some s.ports[p].policy.slipLimit else s.ports[p].slipTimer } }
      (.lnFault p c .reported))) ∧
  ∀ (s : State) (p : Fin 4) (c : FaultCause) (i : Instr),
    (c = .noWake ∧ i = .wakeTimerExpiry p ∧ s.ports[p].state = .waking ∧ s.ports[p].wakeTimer.isSome = true) ∨
      (c = .slipTime ∧ i = .slipTimerExpiry p ∧ s.ports[p].state = .slipped ∧ s.ports[p].slipTimer.isSome = true) →
    let quiet : Port :=
      { s.ports[p] with
        candidate := none, chain := false, wakeTimer := none, absenceTimer := none, slipTimer := none, retryTimer := none
        silenceTimer := none, drainTimer := none }
    let latched : State :=
      State.handOff (State.post { s with ports := s.ports.set p { quiet with state := .fault } } (.lnFault p c .latched)) s p none
    let used := min (s.ports[p].retriesUsed + 1) 65535
    let more := ∀ n, s.ports[p].policy.retryLimit = some n → s.ports[p].retriesUsed < n
    (s.ports[p].policy.faultMode = .latch → exec i s = .next latched) ∧
    (s.ports[p].policy.faultMode = .retry ∧ ¬ more → exec i s = .next latched) ∧
    (s.ports[p].policy.faultMode = .retry ∧ more → exec i s = .next (State.handOff
      (State.post
        { s with
          ports := s.ports.set p
            { quiet with state := .retryWait, retriesUsed := used, retryTimer := some s.ports[p].policy.retryWait } }
        (.lnFault p c (.retrying used))) s p none)) ∧
    (s.ports[p].policy.faultMode = .report → exec i s = .next (State.post
      { s with
        ports := s.ports.set p
          { s.ports[p] with
            wakeTimer := if c = .noWake then some 2000 else s.ports[p].wakeTimer
            slipTimer := if c = .slipTime then some s.ports[p].policy.slipLimit else s.ports[p].slipTimer } }
      (.lnFault p c .reported)))

/-- R33, R36: the retry timer's expiry wakes the port with retries used kept and no notice; the first drain expiry parks it and
posts LNPARK. That LNPARK comes before the readiness test, and that the test follows the change of state, is the model's reading
(log entries 9 and 10), and so is the field of the latched interval (log entry 11). -/
def Obligations.RetryAndDrainExpiries : Prop :=
  ∀ (s : State) (p : Fin 4),
    let quiet : Port :=
      { s.ports[p] with
        candidate := none, chain := false, wakeTimer := none, absenceTimer := none, slipTimer := none, retryTimer := none
        silenceTimer := none, drainTimer := none }
    let parked : State := State.post { s with ports := s.ports.set p { quiet with state := .parked } } (.lnPark p)
    (s.ports[p].state = .retryWait ∧ s.ports[p].retryTimer.isSome = true →
      let woken := s.ports.set p
        { quiet with state := .waking, slipCount := 0, wakeTimer := some 2000, wakeInterval := s.interval }
      exec (.retryTimerExpiry p) s = .next { s with ports := woken, sweeps := readied woken s.sweeps }) ∧
    (s.ports[p].state = .draining ∧ s.ports[p].silenceTimer.isSome = true → exec (.drainSilenceTimerExpiry p) s =
      .next { parked with sweeps := readied parked.ports s.sweeps }) ∧
    (s.ports[p].state = .draining ∧ s.ports[p].drainTimer.isSome = true → exec (.drainLimitTimerExpiry p) s =
      .next { parked with sweeps := readied parked.ports s.sweeps })

/-! ### Reference slots -/

/-- R45, R46, R48, R49, R50: the four reference requests, taken, change their slot alone and answer with its report; the refusals of
REFOPEN, REFCLOSE and REFCLEAR carry the report of the slot they found, and a slot above 7 is refused RANGE without one. -/
def Obligations.ReferenceRequestsChangeTheirSlot : Prop :=
  (∀ (s : State) (ak : AddressKind) (i : Fin 8),
    let report (x : RefSlot) : List Byte :=
      leBytes 1 i.val ++ [codeByte slotStateList x.state] ++ leBytes 2 (x.declared.getD 0) ++ leBytes 2 x.samples.length ++
        leBytes 1 x.useCount
    let done (kind : Byte) (pay : List Byte) (x : RefSlot) : State :=
      { s with slots := s.slots.set i x, cmd := s.cmd.taken { kind := kind, payload := pay, ak := ak } .ok (report x) }
    (∀ n, 256 ≤ n → n ≤ 16384 → s.slots[i].state = .empty ∨ (s.slots[i].state = .ready ∧ s.slots[i].useCount = 0) →
      s.Taking { kind := 10#8, payload := refopenPayload i.val n, ak := ak } → exec (.refopen ak (refopenPayload i.val n)) s =
        .next (done 10#8 (refopenPayload i.val n) { s.slots[i] with state := .loading, declared := some n, samples := [] })) ∧
    (∀ (rs : List RefSample) (n : Nat), 1 ≤ rs.length → rs.length ≤ 256 → s.slots[i].state = .loading →
      s.slots[i].declared = some n → s.slots[i].samples.length + rs.length ≤ n → n ≤ 16384 →
      s.Taking { kind := 11#8, payload := refdataPayload i.val s.slots[i].samples.length rs, ak := ak } →
      exec (.refdata ak (refdataPayload i.val s.slots[i].samples.length rs)) s =
        .next (done 11#8 (refdataPayload i.val s.slots[i].samples.length rs)
          { s.slots[i] with samples := s.slots[i].samples ++ rs })) ∧
    (s.slots[i].state = .loading → s.slots[i].declared = some s.slots[i].samples.length →
      s.Taking { kind := 12#8, payload := [byteOf i.val], ak := ak } → exec (.refclose ak [byteOf i.val]) s =
        .next (done 12#8 [byteOf i.val] { s.slots[i] with state := .ready, useCount := 0 })) ∧
    (s.slots[i].useCount = 0 → s.Taking { kind := 13#8, payload := [byteOf i.val], ak := ak } →
      exec (.refclear ak [byteOf i.val]) s =
        .next (done 13#8 [byteOf i.val] { state := .empty, declared := none, samples := [], useCount := 0 })) ∧
    let refused (kind : Byte) (pay : List Byte) (res : Result) : State :=
      s.refusing { kind := kind, payload := pay, ak := ak } res (report s.slots[i])
    (∀ n, n < 65536 → s.Taking { kind := 10#8, payload := refopenPayload i.val n, ak := ak } →
      (n < 256 ∨ 16384 < n →
        exec (.refopen ak (refopenPayload i.val n)) s = .next (refused 10#8 (refopenPayload i.val n) .range)) ∧
      (256 ≤ n → n ≤ 16384 → s.slots[i].state = .loading ∨ (s.slots[i].state = .ready ∧ 0 < s.slots[i].useCount) →
        exec (.refopen ak (refopenPayload i.val n)) s = .next (refused 10#8 (refopenPayload i.val n) .busy))) ∧
    (s.Taking { kind := 12#8, payload := [byteOf i.val], ak := ak } →
      (s.slots[i].state = .empty ∨ s.slots[i].state = .ready →
        exec (.refclose ak [byteOf i.val]) s = .next (refused 12#8 [byteOf i.val] .state)) ∧
      (∀ n, s.slots[i].state = .loading → s.slots[i].declared = some n → s.slots[i].samples.length < n →
        exec (.refclose ak [byteOf i.val]) s = .next (refused 12#8 [byteOf i.val] .short))) ∧
    (0 < s.slots[i].useCount → s.Taking { kind := 13#8, payload := [byteOf i.val], ak := ak } →
      exec (.refclear ak [byteOf i.val]) s = .next (refused 13#8 [byteOf i.val] .busy))) ∧
  ∀ (s : State) (ak : AddressKind) (p : List Byte), 7 < field p 0 1 →
    let refused (kind : Byte) : State := s.refusing { kind := kind, payload := p, ak := ak } .range []
    (p.length = 3 → s.Taking { kind := 10#8, payload := p, ak := ak } → exec (.refopen ak p) s = .next (refused 10#8)) ∧
    (p.length = 1 → s.Taking { kind := 12#8, payload := p, ak := ak } → exec (.refclose ak p) s = .next (refused 12#8)) ∧
    (p.length = 1 → s.Taking { kind := 13#8, payload := p, ak := ak } → exec (.refclear ak p) s = .next (refused 13#8))

/-- R47, R50: a REFDATA for a slot of the table is refused in the order RANGE, STATE, ORDER, RANGE, with the slot report; one for a
slot above 7 is refused RANGE without it. -/
def Obligations.RefdataIsRefusedInOrder : Prop :=
  (∀ (s : State) (ak : AddressKind) (p : List Byte), p.length = 5 + 2 * field p 3 2 → 7 < field p 0 1 →
    s.Taking { kind := 11#8, payload := p, ak := ak } →
    exec (.refdata ak p) s = .next (s.refusing { kind := 11#8, payload := p, ak := ak } .range [])) ∧
  ∀ (s : State) (ak : AddressKind) (i : Fin 8) (offset : Nat) (rs : List RefSample), offset < 65536 → rs.length < 65536 →
    s.Taking { kind := 11#8, payload := refdataPayload i.val offset rs, ak := ak } →
    let refused (res : Result) : State :=
      s.refusing { kind := 11#8, payload := refdataPayload i.val offset rs, ak := ak } res
        (leBytes 1 i.val ++ [codeByte slotStateList s.slots[i].state] ++ leBytes 2 (s.slots[i].declared.getD 0) ++
          leBytes 2 s.slots[i].samples.length ++ leBytes 1 s.slots[i].useCount)
    let ev := exec (.refdata ak (refdataPayload i.val offset rs)) s
    let inRange := offset ≤ 16383 ∧ 1 ≤ rs.length ∧ rs.length ≤ 256
    (¬ inRange → ev = .next (refused .range)) ∧
    (inRange → s.slots[i].state ≠ .loading → ev = .next (refused .state)) ∧
    (inRange → s.slots[i].state = .loading → offset ≠ s.slots[i].samples.length → ev = .next (refused .order)) ∧
    (inRange → s.slots[i].state = .loading → offset = s.slots[i].samples.length →
      s.slots[i].declared.getD 0 < offset + rs.length → ev = .next (refused .range))

/-! ### The sweep list -/

/-- R57, R58, R61: a SWANN that R59 does not refuse adds its entry at the end, counts the use of its slot, marks its map entry
ANNOUNCED, and answers with the window end and the state the readiness test gives (that the shift byte of a slot reference is not
examined: log entry 14). -/
def Obligations.SwannAnnouncesItsSweep : Prop :=
  ∀ (s : State) (ak : AddressKind) (a : Announcement) (k : Stack),
    s.Taking { kind := 14#8, payload := swannPayload a, ak := ak } → a.tag < 65536 → a.vp < 4294967296 → a.number < 256 →
    a.start < 18446744073709551616 → a.length < 65536 → (∀ c shift, a.reference = .pilot c shift → shift < 256) →
    s.findStack a.vp = some k → swannRefusal s (swannPayload a) = none →
    let ending := a.start + a.length + k.settings.listen - 2
    let added : SweepEntry :=
      { tag := a.tag, vp := a.vp, number := a.number, start := a.start, length := a.length, reference := a.reference
        windowEnd := ending, state := .waiting, qc := none, lane := none, qcTimer := none }
    exec (.swann ak (swannPayload a)) s = .next { s with
      sweeps := s.sweeps ++ [{ added with state := readiness s.ports added }]
      slots := match a.reference with
        | .slot i => s.slots.set i { s.slots[i] with useCount := s.slots[i].useCount + 1 }
        | .pilot _ _ => s.slots
      stackTable := s.stackTable.map fun y =>
        if y.settings.vp = a.vp then { y with map := y.map.set (a.number - 1) (.announced a.tag) } else y
      cmd := s.cmd.taken { kind := 14#8, payload := swannPayload a, ak := ak } .ok
        (leBytes 8 ending ++ [codeByte sweepStateList (readiness s.ports added)]) }

/-- R59, R60: a SWANN is refused with the result of the first condition of R59 that holds, an addressed one by its answer and a
broadcast one by ANNREFUSED with the tag it carried (a slot reference's shift byte: log entry 14). -/
def Obligations.SwannIsRefusedInOrder : Prop :=
  ∀ (s : State) (ak : AddressKind) (p : List Byte) (res : Result), s.Taking { kind := 14#8, payload := p, ak := ak } →
    p.length = 21 → swannRefusal s p = some res →
    let asked : Request := { kind := 14#8, payload := p, ak := ak }
    exec (.swann ak p) s =
      .next (match ak with
        | .addressed => s.refusing asked res []
        | .broadcast => State.post { s with cmd := s.cmd.taken asked res [] } (.annRefused (field p 0 2) res))

/-- R63, R64, R66: what the readiness test makes of an entry, which entries an overrun test aborts, and which of the two follows
a port's event (their order: log entries 9 and 10). -/
def Obligations.ReadinessAndOverrunTests : Prop :=
  (∀ (ports : Vector Port 4) (e : SweepEntry),
    let delivers (p : Fin 4) : Prop := ports[p].state = .locked ∨ ports[p].state = .slipped
    let past : Prop := ∀ p, delivers p → ∃ f, ports[p].front = some f ∧ e.windowEnd ≤ f
    let started : Prop := ∃ p, delivers p ∧ ∃ f, ports[p].front = some f ∧ e.start ≤ f
    (e.state ∈ [.waiting, .capturing] → past → readiness ports e = .ready) ∧
    (e.state = .waiting → ¬ past → started → readiness ports e = .capturing) ∧
    (e.state = .waiting → ¬ past → ¬ started → readiness ports e = .waiting) ∧
    (e.state = .capturing → ¬ past → readiness ports e = .capturing) ∧
    (e.state ∈ [.ready, .correlating, .qcWait] → readiness ports e = e.state)) ∧
  (∀ (s before : State) (p : Fin 4),
    (s.ports[p].state = before.ports[p].state → s.handOff before p none = s) ∧
    (s.ports[p].state ≠ before.ports[p].state → s.handOff before p none = { s with sweeps := readied s.ports s.sweeps }) ∧
    ∀ i, s.handOff before p (some i) = State.overrunTest { s with sweeps := readied s.ports s.sweeps } i) ∧
  ∀ (s : State) (i : Nat), s.TagsDistinct →
    let struck (e : SweepEntry) : Prop := e.state ∈ [.capturing, .ready, .correlating] ∧ e.start + 65536 ≤ i
    ∃ t, s.overrunTest i = t ∧ (∀ e, e ∈ t.sweeps ↔ e ∈ s.sweeps ∧ ¬ struck e) ∧ t.sweeps.Sublist s.sweeps ∧
      (∀ l : Fin 4, ((∃ e ∈ s.sweeps, struck e ∧ e.lane = some l) → t.lanes[l] = Lane.reset) ∧
        ((∀ e ∈ s.sweeps, struck e → e.lane ≠ some l) → t.lanes[l] = s.lanes[l])) ∧
      t.channels = s.channels ∧ t.interval = s.interval ∧ t.ports = s.ports ∧ t.qcPolicy = s.qcPolicy ∧ t.cmd = s.cmd ∧
      t.pending = s.pending ∧ t.oq.records = s.oq.records

/-- R74, R109, R113, R114, R115, R131, R132: the parts of an abort by its cause: the sweep record offered, the entry's leaving,
SWABORT, the routing in the sweep map with its RESWEEP, and the completion test. -/
def Obligations.AbortsRunTheirParts : Prop :=
  ∀ (s : State) (e : SweepEntry) (k : Stack), s.findStack e.vp = some k →
    let offered (d : Disposition) (q : Option QcRecord) : State :=
      match e.lane with
      | some l => if e.state = .qcWait then s.offerSweep e s.lanes[l] d q else s
      | none => s
    let gone (x : State) (c : AbortCause) : State := (x.withoutSweep e).post (.swAbort e.tag e.vp e.number c)
    let mapped (x : State) (f : Stack → Stack) : State :=
      { x with stackTable := x.stackTable.map fun y => if y.settings.vp = e.vp then f y else y }
    let reopened (y : Stack) : Stack := { y with map := y.map.set (e.number - 1) .unshot }
    let again (y : Stack) : Stack := { y with map := y.map.set (e.number - 1) (.retry e.tag) }
    let granted (y : Stack) : Stack := { again y with retriesUsed := y.retriesUsed + 1 }
    let abandon (c : AbortCause) (y : Stack) : Stack :=
      { y with map := y.map.set (e.number - 1) (.abandoned e.tag c), abandoned := y.abandoned + 1 }
    let resweep (x : State) (c : AbortCause) : State :=
      if k.state = .opened then
        if k.retriesUsed < k.settings.retryLimit then
          ((mapped x granted).post (.resweep e.vp e.number (k.settings.retryLimit - (k.retriesUsed + 1)))).completionTest e.vp
        else (mapped x (abandon c)).completionTest e.vp
      else (mapped x again).completionTest e.vp
    s.abortSweep e .cancelled = (mapped (gone s .cancelled) reopened).completionTest e.vp ∧
    s.abortSweep e .overrun = (mapped (gone s .overrun) (abandon .overrun)).completionTest e.vp ∧
    s.abortSweep e .noPilot = (mapped (gone s .noPilot) (abandon .noPilot)).completionTest e.vp ∧
    (∀ r : QcRecord, r.verdict = .retry →
      s.abortSweep e (.rejected r) = resweep (gone (offered .rejected (some r)) .rejected) .rejected) ∧
    (∀ r : QcRecord, r.verdict ≠ .retry → s.abortSweep e (.rejected r) =
      (mapped (gone (offered .rejected (some r)) .rejected) (abandon .rejected)).completionTest e.vp) ∧
    s.abortSweep e (.qcTimeout true) = resweep (gone (offered .qcTimeout none) .qcTimeout) .qcTimeout ∧
    s.abortSweep e (.qcTimeout false) =
      (mapped (gone (offered .qcTimeout none) .qcTimeout) (abandon .qcTimeout)).completionTest e.vp ∧
    s.abortSweep e .discarded = gone s .discarded

/-- R76: SWCANCEL aborts the listed entry with its tag, and is refused RANGE for a tag of 0, LATE for a tag merged in some map and
NOTFOUND otherwise. -/
def Obligations.SwcancelAbortsOrRefuses : Prop :=
  ∀ (s : State) (ak : AddressKind) (tag : Nat), tag < 65536 →
    let asked : Request := { kind := 15#8, payload := leBytes 2 tag, ak := ak }
    s.Taking asked →
    let ev := exec (.swcancel ak (leBytes 2 tag)) s
    (tag = 0 → ev = .next (s.refusing asked .range [])) ∧
    (∀ e, 1 ≤ tag → s.findSweep tag = some e → ev = .next { s.abortSweep e .cancelled with cmd := s.cmd.taken asked .ok [] }) ∧
    (1 ≤ tag → (∀ e ∈ s.sweeps, e.tag ≠ tag) → (∃ k ∈ s.stackTable, .merged tag ∈ k.map) →
      ev = .next (s.refusing asked .late [])) ∧
    (1 ≤ tag → (∀ e ∈ s.sweeps, e.tag ≠ tag) → (∀ k ∈ s.stackTable, .merged tag ∉ k.map) →
      ev = .next (s.refusing asked .notFound []))

/-- R72, R129: the parts of a merge in their order. -/
def Obligations.MergesRunTheirParts : Prop :=
  ∀ (s : State) (e : SweepEntry) (l : Lane) (d : Disposition),
    let merged (y : Stack) : Stack :=
      { y with
        map := y.map.set (e.number - 1) (.merged e.tag), accs := accumulateAll y.settings l.result y.accs
        merged := y.merged + 1, earliest := some (min (y.earliest.getD e.start) e.start) }
    let stacked : State :=
      { s with stackTable := s.stackTable.map fun y => if y.settings.vp = e.vp then merged y else y }
    s.mergeSweep e l d =
      ((((stacked.offerSweep e l d e.qc).withoutSweep e).post (.swMerged e.tag e.vp e.number)).completionTest e.vp)

/-- R127, R128, R129: what a result's traces add to each channel's accumulators. -/
def Obligations.MergeArithmeticIsExact : Prop :=
  ∀ (k : StackSettings) (ts : List TraceResult) (accs : Vector Accumulators 480) (c : Fin 480),
    (ts.map (·.channel)).Nodup →
    ((∀ t ∈ ts, t.channel = c → t.dropped = true) → (accumulateAll k ts accs)[c] = accs[c]) ∧
    ∀ t ∈ ts, t.channel = c → t.dropped = false → accs[c].numerators.length = k.listen → t.samples.length = k.listen →
      accs[c].denominators.length = windowCount k.listen k.divWindow → t.levels.length = windowCount k.listen k.divWindow →
      1 ≤ k.divWindow →
      let a := accs[c]
      let b := (accumulateAll k ts accs)[c]
      let w (i : Nat) : Int := match k.weighting with
        | .plain => 1
        | .diversity => 2 ^ (31 - max (t.levels.getD i 0) k.floor)
      b.numerators.length = k.listen ∧ b.denominators.length = windowCount k.listen k.divWindow ∧
      (∀ j, j < k.listen → b.numerators.getD j 0 = a.numerators.getD j 0 + t.samples.getD j 0 * w (j / k.divWindow)) ∧
      (∀ i, i < windowCount k.listen k.divWindow → b.denominators.getD i 0 = a.denominators.getD i 0 + w i) ∧
      b.mergeCount = a.mergeCount + 1 ∧ b.holed = (a.holed || t.holed) ∧ b.saturatedTotal = a.saturatedTotal + t.saturated

/-- R157 with R146, R147: a sweep record is appended when it fits and no stack is held, dropped with its reason otherwise, and not
offered where the stack keeps no sweeps. -/
def Obligations.SweepRecordsAreAppendedOrDropped : Prop :=
  ∀ (s : State) (e : SweepEntry) (l : Lane) (d : Disposition) (qc : Option QcRecord) (k : Stack),
    s.findStack e.vp = some k →
    let size := 48 + l.result.length * (16 + 4 * k.settings.listen)
    let n := s.oq.nextNumber
    let made : OutRecord :=
      { kind := .sweep, number := n, size := size, content := sweepContent e k.settings l n d qc s.interval s.channels }
    let appended : State :=
      { s with
        oq := { s.oq with
          records := s.oq.records ++ [made], nextNumber := if n = 4294967295 then 1 else n + 1
          readPosition := if s.oq.records = [] then 0 else s.oq.readPosition } }
    (k.settings.keepSweeps = false → s.offerSweep e l d qc = s) ∧
    (k.settings.keepSweeps = true → s.oq.heldOrder ≠ [] →
      s.offerSweep e l d qc = s.post (.recDrop e.tag e.vp .heldWait)) ∧
    (k.settings.keepSweeps = true → s.oq.heldOrder = [] → s.oq.free < size →
      s.offerSweep e l d qc = s.post (.recDrop e.tag e.vp .noSpace)) ∧
    (k.settings.keepSweeps = true → s.oq.heldOrder = [] → size ≤ s.oq.free → s.offerSweep e l d qc =
      if s.oq.records = [] then appended.post (.oqReady n) else appended)

/-! ### Lanes and quality control -/

/-- R84 to R87, R51 to R54, R67, R68: which entry goes to which lane, what the lane fixes for a slot or a pilot reference, and the
NOPILOT abort. That a grant with no IDLE lane or no READY entry changes nothing is the model's choice (log entry 5). -/
def Obligations.GrantsFixTheJob : Prop :=
  (∀ s : State, (∀ l : Fin 4, s.lanes[l].state ≠ .idle) ∨ (∀ e ∈ s.sweeps, e.state ≠ .ready) → exec .grant s = .next s) ∧
  ∀ (s : State) (i : Nat) (e : SweepEntry) (k : Stack) (l : Fin 4), s.sweeps[i]? = some e → e.state = .ready →
    (∀ j f, s.sweeps[j]? = some f → f.state = .ready → e.start < f.start ∨ (e.start = f.start ∧ i ≤ j)) →
    s.lanes[l].state = .idle → (∀ m : Fin 4, m < l → s.lanes[m].state ≠ .idle) → s.findStack e.vp = some k →
    let job (reference : List RefSample) (clips : Nat) : Lane :=
      { state := .correlating, held := some e.tag
        params := some
          { start := e.start, length := e.length, windowEnd := e.windowEnd, listen := k.settings.listen
            shift := k.settings.shift, divWindow := k.settings.divWindow, gap := k.settings.gap }
        snapshot := s.channels.toList.map fun c => { state := c.state, polarity := c.polarity }
        reference := reference, clipCount := clips, window := s.ports.toList.map fun p => p.ring, result := [] }
    let taken (x : Lane) : State :=
      { s with
        lanes := s.lanes.set l x
        sweeps := s.sweeps.map fun y => if y.tag = e.tag then { y with state := .correlating, lane := some l } else y }
    (∀ slot, e.reference = .slot slot → exec .grant s = .next (taken (job (s.slots[slot].samples.take e.length) 0))) ∧
    ∀ c shift, e.reference = .pilot c shift →
      let x (d : Sample) : Int := roundShift shift (if s.channels[c].polarity = .reversed then -d.toInt else d.toInt)
      (∀ ds : List Sample, ds.length = e.length → (∀ j, j < e.length → s.sample c (e.start + j) = ds[j]?) →
        exec .grant s = .next (taken (job (ds.map fun d => BitVec.ofInt 16 (max (-32767) (min 32767 (x d))))
          (ds.countP fun d => decide (x d < -32767 ∨ 32767 < x d))))) ∧
      ((∃ j, j < e.length ∧ s.sample c (e.start + j) = none) →
        exec .grant s = .next ((taken (job [] 0)).abortSweep { e with state := .correlating, lane := some l } .noPilot))

/-- R86 to R93: the result of a lane's job is, for each channel LIVE in its snapshot in ascending order, the clamped scaled
correlation of its window with the reference, its gaps, saturated count and levels as those rules say. -/
def Obligations.JobResultsAreTheClampedCorrelations : Prop :=
  ∀ (l : Lane) (j : JobParams), l.params = some j → l.reference.length = j.length → 1 ≤ j.length → 1 ≤ j.listen →
    1 ≤ j.divWindow → j.windowEnd = j.start + j.length + j.listen - 2 → l.snapshot.length = 480 → l.window.length = 4 →
    (l.jobResult.map (·.channel)).Pairwise (· < ·) ∧
    (∀ c : Fin 480, c ∈ l.jobResult.map (·.channel) ↔ (l.snapshot[c.val]?).map (·.state) = some .live) ∧
    ∀ t ∈ l.jobResult,
      let d (i : Nat) : Option Sample := ringSample (l.window.getD (t.channel.val / 120) []) (t.channel.val % 120) i
      let x (i : Nat) : Int :=
        match d i with
        | some v => if (l.snapshot[t.channel.val]?).map (·.polarity) = some .reversed then -v.toInt else v.toInt
        | none => 0
      let gaps : Prop := ∃ i, j.start ≤ i ∧ i ≤ j.windowEnd ∧ d i = none
      let total (k : Nat) : Int := ∑ i ∈ Finset.range j.length, (l.reference.getD i 0).toInt * x (j.start + k + i)
      let scaled (k : Nat) : Int := roundShift j.shift (total k)
      let y (k : Nat) : Int := max (-2147483647) (min 2147483647 (scaled k))
      (t.dropped = true ↔ j.gap = .drop ∧ gaps) ∧
      (t.dropped = true → t.holed = false ∧ t.samples = [] ∧ t.saturated = 0 ∧ t.levels = []) ∧
      (t.dropped = false →
        (t.holed = true ↔ gaps) ∧ t.samples = (List.range j.listen).map y ∧
        t.saturated = (List.range j.listen).countP (fun k => decide (scaled k < -2147483647 ∨ 2147483647 < scaled k)) ∧
        t.levels.length = (j.listen + j.divWindow - 1) / j.divWindow ∧
        ∀ w n, t.levels[w]? = some n → n ≤ 31 ∧
          (∀ k, w * j.divWindow ≤ k → k < (w + 1) * j.divWindow → k < j.listen → (y k).natAbs < 2 ^ n) ∧
          (n = 0 ∨ ∃ k, w * j.divWindow ≤ k ∧ k < (w + 1) * j.divWindow ∧ k < j.listen ∧ 2 ^ (n - 1) ≤ (y k).natAbs))

/-- R90 and R91 whole: how a trace's correlation sums are scaled, rounded, clamped and counted, and that a saturated trace is
merged like any other. -/
def Obligations.SumsAreRoundedAndClamped : Prop :=
  (∀ A : Int, roundShift 0 A = A) ∧
  (∀ (q : Nat) (A : Int), 1 ≤ q → q ≤ 31 → roundShift q A = A.sign * ((|A| + 2 ^ (q - 1)) / 2 ^ q)) ∧
  (∀ q : Nat, roundShift q 0 = 0) ∧
  (∀ (q : Nat) (m : Int), 1 ≤ q → q ≤ 31 → 0 ≤ m → roundShift q (2 ^ q * m + 2 ^ (q - 1)) = m + 1 ∧
    roundShift q (-(2 ^ q * m + 2 ^ (q - 1))) = -(m + 1)) ∧
  (∀ (q : Nat) (A : Int), roundShift q (-A) = -roundShift q A) ∧
  (∀ A : Int, |A| < 2 ^ 30 → roundShift 31 A = 0) ∧
  (∀ (j : JobParams) (r : List Int) (c : Fin 480) (pol : Polarity) (window : List (Option Sample)),
    ¬ (j.gap = .drop ∧ none ∈ window) →
    let t := traceResult j r c pol window
    let scaled : List Int :=
      (correlate j.listen r (window.map fun d => (d.map (polarised pol)).getD 0)).map fun A => roundShift j.shift A
    t.samples = scaled.map (fun v => if 2147483647 < v then 2147483647 else if v < -2147483647 then -2147483647 else v) ∧
    t.saturated = scaled.countP (fun v => decide (2147483647 < v ∨ v < -2147483647)) ∧ t.saturated ≤ j.listen ∧
    ∀ y ∈ t.samples, -2147483647 ≤ y ∧ y ≤ 2147483647) ∧
  (∀ (j : JobParams) (r : List Int) (c : Fin 480) (window : List (Option Sample)), ¬ (j.gap = .drop ∧ none ∈ window) →
    (traceResult j r c .reversed window).samples = (traceResult j r c .normal window).samples.map fun y => -y) ∧
  ∀ (k : StackSettings) (t : TraceResult) (a : Accumulators) (n : Nat),
    accumulate k { t with saturated := n } a =
      { accumulate k t a with saturatedTotal := a.saturatedTotal + n }

/-- R70, R71, R95, R103, R112: a completed job merges its sweep, or holds it in QCWAIT with its timer started; the expiry of that
timer acts by the timeout action. That the completion of a lane which is not CORRELATING changes nothing is the model's choice (log
entry 5). -/
def Obligations.CompletionsAndQcExpiries : Prop :=
  (∀ (s : State) (l : Fin 4), s.lanes[l].state ≠ .correlating → exec (.laneCompletion l) s = .next s) ∧
  ∀ (s : State) (l : Fin 4) (e : SweepEntry), s.findSweep e.tag = some e → e.lane = some l →
    let done : Lane := { s.lanes[l] with result := s.lanes[l].jobResult }
    let placed (x : Lane) : State := { s with lanes := s.lanes.set l x }
    (s.lanes[l].state = .correlating → s.lanes[l].held = some e.tag → e.state = .correlating →
      (e.qc.isSome = true ∨ s.qcPolicy.required = false →
        exec (.laneCompletion l) s = .next ((placed done).mergeSweep e done .merged)) ∧
      (e.qc = none → s.qcPolicy.required = true → exec (.laneCompletion l) s = .next
        { placed { done with state := .qcWait } with
          sweeps := s.sweeps.map fun y =>
            if y.tag = e.tag then { y with state := .qcWait, qcTimer := some s.qcPolicy.waitLimit } else y })) ∧
    (e.state = .qcWait → e.qcTimer.isSome = true →
      (s.qcPolicy.timeoutAction = .merge →
        exec (.qcWaitExpiry e.tag) s = .next (s.mergeSweep e s.lanes[l] .qcMissing)) ∧
      (s.qcPolicy.timeoutAction = .reject → exec (.qcWaitExpiry e.tag) s = .next (s.abortSweep e (.qcTimeout false))) ∧
      (s.qcPolicy.timeoutAction = .retry → exec (.qcWaitExpiry e.tag) s = .next (s.abortSweep e (.qcTimeout true))))

/-- R105, R106: which checks a report fails, its verdict, and its reported failed checks; a report is evaluated at its taking,
against the policy as it then stands. -/
def Obligations.VerdictsAreTheMostSevereAction : Prop :=
  (∀ (q : QcPolicy) (phase distortion force : Nat),
    let f := failedChecks q phase distortion force
    (f.phase = true ↔ 10 * q.phaseLimit < phase) ∧ (f.distortion = true ↔ 10 * q.distortionLimit < distortion) ∧
      (f.force = true ↔ force < 10 * q.forceFloor)) ∧
  (∀ (q : QcPolicy) (f : FailedChecks),
    let named (a : QcAction) : Prop :=
      (f.phase = true ∧ q.phaseAction = a) ∨ (f.distortion = true ∧ q.distortionAction = a) ∨
        (f.force = true ∧ q.forceAction = a)
    (verdictOf q f = .pass ↔ ∀ a, named a → a = .off) ∧
    (verdictOf q f = .note ↔ named .note ∧ ¬ named .reject ∧ ¬ named .retry) ∧
    (verdictOf q f = .reject ↔ named .reject ∧ ¬ named .retry) ∧
    (verdictOf q f = .retry ↔ named .retry) ∧
    ((reportedChecks q f).phase = true ↔ f.phase = true ∧ q.phaseAction ≠ .off) ∧
    ((reportedChecks q f).distortion = true ↔ f.distortion = true ∧ q.distortionAction ≠ .off) ∧
    ((reportedChecks q f).force = true ↔ f.force = true ∧ q.forceAction ≠ .off) ∧
    (verdictOf q f = .pass ↔ reportedChecks q f = { phase := false, distortion := false, force := false })) ∧
  ∀ (s : State) (ak : AddressKind) (tag phase distortion force : Nat) (e : SweepEntry), 1 ≤ tag → tag < 65536 →
    phase ≤ 1800 → distortion ≤ 1000 → force ≤ 2000 → s.findSweep tag = some e → e.qc = none →
    let asked : Request := { kind := 18#8, payload := swqcPayload tag phase distortion force, ak := ak }
    s.Taking asked → ∃ t outcome, exec (.swqc ak (swqcPayload tag phase distortion force)) s = .next t ∧
      let f := failedChecks s.qcPolicy phase distortion force
      t.cmd = s.cmd.taken asked .ok
        [codeByte verdictList (verdictOf s.qcPolicy f), byteOf (reportedChecks s.qcPolicy f).code, outcome]

/-- R104, R107, R108, R110: a report is stored, merges its sweep or aborts it, by its verdict and the entry's state, with its
QCNOTE and its answer; and the refusals RANGE, DUPLICATE, LATE and NOTFOUND in the order of R104. -/
def Obligations.ReportsActByVerdictAndPlace : Prop :=
  ∀ (s : State) (ak : AddressKind) (tag phase distortion force : Nat), tag < 65536 → phase < 65536 → distortion < 65536 →
    force < 65536 →
    let asked : Request := { kind := 18#8, payload := swqcPayload tag phase distortion force, ak := ak }
    s.Taking asked →
    let ev := exec (.swqc ak (swqcPayload tag phase distortion force)) s
    let bad : Prop := tag = 0 ∨ 1800 < phase ∨ 1000 < distortion ∨ 2000 < force
    (bad → ev = .next (s.refusing asked .range [])) ∧
    (¬ bad → (∀ e ∈ s.sweeps, e.tag ≠ tag) → (∃ k ∈ s.stackTable, .merged tag ∈ k.map) →
      ev = .next (s.refusing asked .late [])) ∧
    (¬ bad → (∀ e ∈ s.sweeps, e.tag ≠ tag) → (∀ k ∈ s.stackTable, .merged tag ∉ k.map) →
      ev = .next (s.refusing asked .notFound [])) ∧
    ∀ e, ¬ bad → s.findSweep tag = some e →
      (e.qc.isSome = true → ev = .next (s.refusing asked .duplicate [])) ∧
      (e.qc = none →
        let f := failedChecks s.qcPolicy phase distortion force
        let v := verdictOf s.qcPolicy f
        let r : QcRecord := { phase := phase, distortion := distortion, force := force, verdict := v }
        let noted : State := if v = .note then s.post (.qcNote tag (reportedChecks s.qcPolicy f)) else s
        let stored : State :=
          { noted with sweeps := s.sweeps.map fun y => if y.tag = tag then { y with qc := some r } else y }
        let answered (x : State) (o : Byte) : State :=
          { x with
            cmd := s.cmd.taken asked .ok [codeByte verdictList v, byteOf (reportedChecks s.qcPolicy f).code, o] }
        (v = .pass ∨ v = .note → e.state ≠ .qcWait → ev = .next (answered stored 0#8)) ∧
        (v = .pass ∨ v = .note → e.state = .qcWait → ∀ l, e.lane = some l →
          ev = .next (answered (stored.mergeSweep { e with qc := some r } s.lanes[l] .merged) 1#8)) ∧
        (v = .reject ∨ v = .retry → ev = .next (answered (s.abortSweep e (.rejected r)) 2#8)))

/-! ### Stacks and the output queue -/

/-- R133 to R136, R148, R149: the completion test, and the space request of a stack for which it holds. -/
def Obligations.CompleteStacksAskForSpace : Prop :=
  ∀ (s : State) (vp : Nat) (k : Stack), s.findStack vp = some k →
    let holds : Prop :=
      (k.state = .opened ∧ k.merged + k.abandoned = k.settings.expected) ∨
        (k.state = .closing ∧ ∀ e ∈ s.sweeps, e.vp ≠ vp)
    (¬ holds → s.completionTest vp = s) ∧
    (holds → ∀ listed : List ListedChannel, (listed.map (·.channel)).Pairwise (· < ·) →
      (∀ x, x ∈ listed ↔ s.channels[x.channel].state = x.state ∧ x.state ≠ .unmapped) →
      let size := 64 + listed.length * (16 + 4 * k.settings.listen)
      let fixed (st : StackState) (y : Stack) : Stack :=
        if y.settings.vp = vp then
          { y with
            state := st, channelList := listed
            notShot := some (if y.state = .closing then y.map.countP MapEntry.mayAnnounce else 0) }
        else y
      (s.oq.heldOrder = [] ∧ size ≤ s.oq.free → s.completionTest vp =
        { s with
          stackTable := s.stackTable.map (fixed .finalizing)
          oq := { s.oq with reservations := s.oq.reservations ++ [{ vp := vp, bytes := size }] } }) ∧
      (¬ (s.oq.heldOrder = [] ∧ size ≤ s.oq.free) → s.completionTest vp =
        State.post
          { s with stackTable := s.stackTable.map (fixed .held), oq := { s.oq with heldOrder := s.oq.heldOrder ++ [vp] } }
          (.stkHeld vp size)))

/-- R120 to R122, R137, R139, R140, R151: what STKOPEN, STKCLOSE and STKDROP do when they are taken. -/
def Obligations.StackRequestsWhenTaken : Prop :=
  (∀ (s : State) (ak : AddressKind) (k : StackSettings) (code : Nat), k.Lawful → s.stackTable.length < 8 →
    (∀ y ∈ s.stackTable, y.settings.vp ≠ k.vp) → code = k.floor ∨ (code = 255 ∧ k.floor = 8) →
    s.Taking { kind := 19#8, payload := stkopenPayload { k with floor := code }, ak := ak } →
    exec (.stkopen ak (stkopenPayload { k with floor := code })) s = .next { s with
      stackTable := s.stackTable ++
        [{ settings := k, state := .opened, map := List.replicate k.expected .unshot, merged := 0, abandoned := 0
           retriesUsed := 0, earliest := none, notShot := none, channelList := []
           accs := Vector.replicate 480
             { numerators := List.replicate k.listen 0
               denominators := List.replicate ((k.listen + k.divWindow - 1) / k.divWindow) 0
               mergeCount := 0, holed := false, saturatedTotal := 0 } }]
      cmd := s.cmd.taken { kind := 19#8, payload := stkopenPayload { k with floor := code }, ak := ak } .ok [] }) ∧
  ∀ (s : State) (ak : AddressKind) (vp : Nat) (k : Stack), 1 ≤ vp → vp < 4294967296 → s.findStack vp = some k →
    (s.Taking { kind := 20#8, payload := leBytes 4 vp, ak := ak } → k.state = .opened →
      exec (.stkclose ak (leBytes 4 vp)) s = .next
        { State.completionTest
            { s with
              stackTable := s.stackTable.map fun y => if y.settings.vp = vp then { y with state := .closing } else y }
            vp with
          cmd := s.cmd.taken { kind := 20#8, payload := leBytes 4 vp, ak := ak } .ok [] }) ∧
    (s.Taking { kind := 21#8, payload := leBytes 4 vp, ak := ak } →
      let ev := exec (.stkdrop ak (leBytes 4 vp)) s
      let dropped (x : State) : State := { x with stackTable := x.stackTable.filter fun y => y.settings.vp != vp }
      let unheld : State :=
        dropped { s with oq := { s.oq with heldOrder := s.oq.heldOrder.filter fun v => v != vp } }
      let answered (x : State) : State :=
        { x with cmd := s.cmd.taken { kind := 21#8, payload := leBytes 4 vp, ak := ak } .ok [] }
      (k.state = .opened ∨ k.state = .closing → ev = .next (answered (dropped
        ((s.sweeps.filter fun e => e.vp == vp).foldl
          (fun x e => State.post (x.withoutSweep e) (.swAbort e.tag e.vp e.number .discarded)) s)))) ∧
      (k.state = .held → s.oq.heldOrder.head? = some vp → ev = .next (answered unheld.serve)) ∧
      (k.state = .held → s.oq.heldOrder.head? ≠ some vp → ev = .next (answered unheld)) ∧
      (k.state = .finalizing → ev = .next (answered (dropped
        { s with oq := { s.oq with reservations := s.oq.reservations.filter fun r => r.vp != vp } }).serve)))

/-- R123, R137, R139, R142: the refusals of the stack requests in their order, STKREFUSED for a broadcast STKOPEN among them. -/
def Obligations.StackRequestsRefusedInOrder : Prop :=
  (∀ (s : State) (ak : AddressKind) (p : List Byte), p.length = 14 → s.Taking { kind := 19#8, payload := p, ak := ak } →
    let asked : Request := { kind := 19#8, payload := p, ak := ak }
    let refused (r : Result) : Host.Outcome State Fault Refusal :=
      .next (match ak with
        | .addressed => s.refusing asked r []
        | .broadcast => State.post { s with cmd := s.cmd.taken asked r [] } (.stkRefused (field p 0 4) r))
    let bad : Prop :=
      field p 0 4 = 0 ∨ field p 4 1 = 0 ∨ 32 < field p 4 1 ∨ 1 < field p 5 1 ∨ field p 6 2 < 64 ∨ 8192 < field p 6 2 ∨
        31 < field p 8 1 ∨ 5 < field p 9 1 ∨ (31 < field p 10 1 ∧ field p 10 1 ≠ 255) ∨ 1 < field p 11 1 ∨ 1 < field p 12 1 ∨
        7 < field p 13 1
    (bad → exec (.stkopen ak p) s = refused .range) ∧
    (¬ bad → 8 ≤ s.stackTable.length → exec (.stkopen ak p) s = refused .full) ∧
    (¬ bad → s.stackTable.length < 8 → (∃ k ∈ s.stackTable, k.settings.vp = field p 0 4) →
      exec (.stkopen ak p) s = refused .duplicate)) ∧
  ∀ (s : State) (i : Instr) (r : Request) (vp : Nat), vp < 4294967296 → s.Taking r → requestOf i = some r →
    r.payload = leBytes 4 vp →
    (r.kind = 20#8 ∨ r.kind = 21#8 ∨ r.kind = 22#8 → (∀ ak k p, i ≠ .unknownRequest ak k p) →
      (vp = 0 → exec i s = .next (s.refusing r .range [])) ∧
      (1 ≤ vp → (∀ k ∈ s.stackTable, k.settings.vp ≠ vp) → exec i s = .next (s.refusing r .noStack []))) ∧
    (∀ k, r.kind = 20#8 → (∀ ak k p, i ≠ .unknownRequest ak k p) → 1 ≤ vp → s.findStack vp = some k → k.state ≠ .opened →
      exec i s = .next (s.refusing r .state []))

/-- R150, R161: the held order is served from its front while its first stack fits, and what OQREL releases, removes, serves and
answers. The read position answered after a removal is the model's choice (log entry 16). -/
def Obligations.HeldStacksAreServedAndBlocksReleased : Prop :=
  (∀ s : State, s.oq.heldOrder = [] → s.serve = s) ∧
  (∀ (s : State) (vp : Nat) (rest : List Nat) (k : Stack), s.oq.heldOrder = vp :: rest → s.findStack vp = some k →
    let size := 64 + k.channelList.length * (16 + 4 * k.settings.listen)
    (s.oq.free < size → s.serve = s) ∧
    (size ≤ s.oq.free → s.serve = State.serve
      { s with
        stackTable := s.stackTable.map fun y => if y.settings.vp = vp then { y with state := .finalizing } else y
        oq := { s.oq with
          heldOrder := rest, reservations := s.oq.reservations ++ [{ vp := vp, bytes := size }] } })) ∧
  ∀ s : State, s.Taking { kind := 24#8, payload := [], ak := .addressed } →
    let asked : Request := { kind := 24#8, payload := [], ak := .addressed }
    (s.oq.records = [] → exec (.oqrel []) s = .next (s.refusing asked .empty [])) ∧
    ∀ (r : OutRecord) (rest : List OutRecord), s.oq.records = r :: rest →
      let n := min s.oq.effectiveBlock (r.size - s.oq.readPosition)
      let answered (x : State) (position : Nat) (removed : Byte) (left : Nat) : State :=
        { x with
          oq := { x.oq with effectiveBlock := x.oq.pendingBlock }
          cmd := s.cmd.taken asked .ok
            (leBytes 4 r.number ++ leBytes 2 n ++ leBytes 4 position ++ [removed] ++ leBytes 4 left) }
      (s.oq.readPosition + n < r.size → exec (.oqrel []) s = .next
        (answered { s with oq := { s.oq with readPosition := s.oq.readPosition + n } } (s.oq.readPosition + n) 0#8
          (rest.length + 1))) ∧
      (r.size ≤ s.oq.readPosition + n → exec (.oqrel []) s = .next
        (answered (State.serve { s with oq := { s.oq with records := rest, readPosition := 0 } }) 0 1#8 rest.length))

/-- R155 with R146, R147: the finalize completion appends the stack's record in place of its reservation, removes the stack and
posts STKDONE. That the completion of a tag which names no FINALIZING stack changes nothing is the model's choice (log entry 5). -/
def Obligations.FinalizationsAppendTheirRecord : Prop :=
  (∀ (s : State) (vp : Nat), (∀ k, s.findStack vp = some k → k.state ≠ .finalizing) →
    exec (.finalizeCompletion vp) s = .next s) ∧
  ∀ (s : State) (vp : Nat) (k : Stack), s.findStack vp = some k → k.state = .finalizing →
    let n := s.oq.nextNumber
    let made : OutRecord :=
      { kind := .stack, number := n, size := 64 + k.channelList.length * (16 + 4 * k.settings.listen)
        content := stackHeader k n s.interval ++ k.channelList.flatMap (stackTrace k s.channels) }
    let base : State :=
      { s with
        stackTable := s.stackTable.filter fun y => y.settings.vp != vp
        oq := { s.oq with
          records := s.oq.records ++ [made], reservations := s.oq.reservations.filter fun r => r.vp != vp
          nextNumber := if n = 4294967295 then 1 else n + 1
          readPosition := if s.oq.records = [] then 0 else s.oq.readPosition } }
    exec (.finalizeCompletion vp) s =
      .next ((if s.oq.records = [] then base.post (.oqReady n) else base).post (.stkDone vp n))

/-- R153: each stacked sample is N over D rounded half away from zero, the nearest integer to the weighted mean and between the
values it averages; all zeros where nothing was merged. -/
def Obligations.StackedSamplesAreRoundedMeans : Prop :=
  (∀ (divWindow : Nat) (a : Accumulators), a.mergeCount = 0 →
    stackedSamples divWindow a = List.replicate a.numerators.length 0) ∧
  (∀ (divWindow : Nat) (a : Accumulators), 1 ≤ a.mergeCount →
    (∀ k, k < a.numerators.length → k / divWindow < a.denominators.length) → (∀ d ∈ a.denominators, 1 ≤ d) →
    (stackedSamples divWindow a).length = a.numerators.length ∧
    ∀ k, k < a.numerators.length →
      let n := a.numerators.getD k 0
      let d := a.denominators.getD (k / divWindow) 0
      let z := (stackedSamples divWindow a).getD k 0
      z = n.sign * ((2 * |n| + d) / (2 * d)) ∧ 2 * |z * d - n| ≤ d ∧
      ∀ low high : Int, low * d ≤ n → n ≤ high * d → low ≤ z ∧ z ≤ high)

/-- R83, R85, R119, R121, R130, R145: settings, accumulators, window ends, running and held jobs, and record sizes keep their
law. -/
def Obligations.EveryStepKeepsTheWorkLaw : Prop :=
  ∀ s t : State, s.TagsDistinct → s.LanesLawful → s.MapsLawful → s.WorkLawful → step s = .next t → t.WorkLawful

/-- R130: in a lawful state no numerator reaches 2^36 in magnitude, no denominator passes it, a channel merged at least once has
denominators of at least 1, and one never merged holds zeros. -/
def Obligations.AccumulatorsNeverOverflow : Prop :=
  ∀ (s : State) (k : Stack) (c : Fin 480), s.MapsLawful → s.WorkLawful → k ∈ s.stackTable →
    let a := k.accs[c]
    a.mergeCount ≤ 32 ∧ (∀ n ∈ a.numerators, |n| < 2 ^ 36) ∧ (∀ d ∈ a.denominators, 0 ≤ d ∧ d ≤ 2 ^ 36) ∧
    (1 ≤ a.mergeCount → ∀ d ∈ a.denominators, 1 ≤ d) ∧
    (a.mergeCount = 0 → (∀ n ∈ a.numerators, n = 0) ∧ ∀ d ∈ a.denominators, d = 0)

/-! ### The command line and the notices -/

/-- R165, R167, R168: what a marked character, a character error and an inconsistent length do to the selection and the frame
under assembly. -/
def Obligations.CharactersSelectAndDeselect : Prop :=
  ∀ s : State, s.cmd.initInterval = false →
    let selected (x : Selection) : State := { s with cmd := { s.cmd with selection := x, assembly := [] } }
    (∀ v : Byte,
      (s.cmd.unitAddress = some v.toNat → exec (.addressCharacter v) s = .next (selected .selectedOwn)) ∧
      (s.cmd.unitAddress ≠ some v.toNat → v = 63#8 → exec (.addressCharacter v) s = .next (selected .selectedAll)) ∧
      (s.cmd.unitAddress ≠ some v.toNat → v ≠ 63#8 → exec (.addressCharacter v) s = .next (selected .deselected))) ∧
    exec .characterError s = .next (selected .deselected) ∧
    ∀ lo hi : Byte, lo.toNat + 256 * hi.toNat = 0 ∨ 1025 < lo.toNat + 256 * hi.toNat →
      (s.cmd.selection = .deselected → exec (.inconsistentLength lo hi) s = .next s) ∧
      (s.cmd.selection ≠ .deselected → s.cmd.assembly = [] →
        exec (.inconsistentLength lo hi) s = .next (selected .deselected))

/-- R168, R170, R171: a frame sent after its address deselects the part and is discarded, reported or queued in the order of
R170; one sent to a deselected part is not received. -/
def Obligations.FramesAreDisposedOfInOrder : Prop :=
  ∀ s : State, s.cmd.initInterval = false →
    let heard : State := { s with cmd := { s.cmd with selection := .deselected, assembly := [] } }
    (∀ chars : List Byte, s.cmd.selection = .deselected → exec (.requestFrame chars) s = .next s) ∧
    (∀ chars : List Byte, s.cmd.selection ≠ .deselected → s.cmd.assembly = [] → wholeFrame chars = true →
      checkGood chars = false → exec (.requestFrame chars) s = .next heard) ∧
    ∀ (kind : Byte) (payload : List Byte) (ak : AddressKind), payload.length ≤ 1024 → s.cmd.assembly = [] →
      s.cmd.selection = (match ak with | .addressed => .selectedOwn | .broadcast => .selectedAll) →
      let ev := exec (.requestFrame (requestChars kind payload)) s
      let mute : Prop := ak = .broadcast ∧ kind ∈ [3#8, 16#8, 22#8, 23#8, 24#8, 26#8, 27#8, 30#8]
      (mute → ev = .next (heard.post (.cmdBadCast kind none))) ∧
      (¬ mute → 4 ≤ s.cmd.inputQueue.length → ev = .next (heard.post (.cmdOvr kind ak))) ∧
      (¬ mute → s.cmd.inputQueue.length < 4 → ev = .next { heard with
        cmd := { heard.cmd with inputQueue := s.cmd.inputQueue ++ [{ kind := kind, payload := payload, ak := ak }] } })

/-- R185, R187, R188, R190, R191: how a notice is posted and stamped, what NTREAD and NTMASK do, and when the part drives the
attention line. -/
def Obligations.NoticesArePostedReadAndMasked : Prop :=
  (∀ (s : State) (b : NoticeBody) (stamp : Nat),
    ((∀ p : Fin 4, s.ports[p].front = none) ∧ stamp = 0) ∨
      ((∃ p : Fin 4, s.ports[p].front = some stamp) ∧ ∀ (p : Fin 4) (f : Nat), s.ports[p].front = some f → f ≤ stamp) →
    (s.nq.notices.length < 64 →
      s.post b = { s with nq := { s.nq with notices := s.nq.notices ++ [{ body := b, stamp := stamp }] } }) ∧
    (64 ≤ s.nq.notices.length → s.post b = { s with nq := { s.nq with overflow := true } })) ∧
  (∀ s : State, s.Taking { kind := 30#8, payload := [], ak := .addressed } →
    let flag : Byte := if s.nq.overflow then 1#8 else 0#8
    let answered (q : NoticeQueue) (p : List Byte) : State :=
      { s with nq := q, cmd := s.cmd.taken { kind := 30#8, payload := [], ak := .addressed } .ok p }
    (s.nq.notices = [] →
      exec (.ntread []) s = .next (answered s.nq ([1#8, 0#8, flag] ++ List.replicate 22 0#8))) ∧
    ∀ (n : Notice) (rest : List Notice), s.nq.notices = n :: rest → exec (.ntread []) s =
      .next (answered { s.nq with notices := rest, overflow := false } ([0#8, byteOf rest.length, flag] ++ n.bytes))) ∧
  (∀ (s : State) (ak : AddressKind) (m : Byte), s.Taking { kind := 31#8, payload := [m], ak := ak } →
    let asked : Request := { kind := 31#8, payload := [m], ak := ak }
    let counted (mask : BitVec 7) : Byte :=
      byteOf (s.nq.notices.countP fun n => !mask.getLsbD (codeOf noticeClassList n.body.noticeClass))
    (m.toNat < 128 → exec (.ntmask ak [m]) s = .next { s with
      nq := { s.nq with mask := m.setWidth 7 }, cmd := s.cmd.taken asked .ok [m, counted (m.setWidth 7)] }) ∧
    (128 ≤ m.toNat → exec (.ntmask ak [m]) s = .next (s.refusing asked .range [s.nq.mask.setWidth 8, counted s.nq.mask]))) ∧
  ∀ s : State, s.attention = true ↔
    ∃ n ∈ s.nq.notices, s.nq.mask.getLsbD (codeOf noticeClassList n.body.noticeClass) = false

/-- R196 whole: the samples and the port front of a PROBE answer. -/
def Obligations.ProbeSamplesAreSignExtended : Prop :=
  (∀ d : Sample, probeSample (some d) = leBytes 3 d.toNat ++ [if d.toInt < 0 then 0xFF#8 else 0x00#8]) ∧
  leBytes 3 (BitVec.toNat (-5#24)) = [0xFB#8, 0xFF#8, 0xFF#8] ∧
  probeSample (some (-5#24)) = [0xFB#8, 0xFF#8, 0xFF#8, 0xFF#8] ∧
  leBytes 3 (BitVec.toNat 8388607#24) = [0xFF#8, 0xFF#8, 0x7F#8] ∧
  probeSample (some 8388607#24) = [0xFF#8, 0xFF#8, 0x7F#8, 0x00#8] ∧
  probeSample none = [0x00#8, 0x00#8, 0x00#8, 0x80#8] ∧ leInt 4 (-2147483648) = [0x00#8, 0x00#8, 0x00#8, 0x80#8] ∧
  indexBytes none = List.replicate 8 0xFF#8 ∧
  ∀ (s : State) (c : Fin 480) (first count : Nat), first < 18446744073709551616 → 1 ≤ count → count ≤ 256 →
    s.Taking { kind := 3#8, payload := probePayload c.val first count, ak := .addressed } →
    ∃ t p, exec (.probe (probePayload c.val first count)) s = .next t ∧
      t.cmd.uplink = .sending { address := s.cmd.unitAddress.getD 0, kind := 3#8, result := .ok, payload := p } false ∧
      (p.drop 2).take 8 = indexBytes s.ports[channelPort c].front ∧
      ∀ j, j < count → (p.drop (20 + 4 * j)).take 4 = probeSample (s.sample c (first + j))
end

