-- ==== Sys2Proof/Laws/Arithmetic.lean ====
section
/-! SUPPORT. Laws of the integer arithmetic: sums of products, the clamp, peaks and levels (R89 to R92). -/

namespace Sys2Proof.Machine

/-- A sum of products over the shorter run, as a sum over its indices. -/
theorem dot_eq_sum (r d : List Int) (h : r.length ≤ d.length) :
    dot r d = ∑ i ∈ Finset.range r.length, r.getD i 0 * d.getD i 0 := by
  induction r generalizing d with
  | nil => cases d <;> rfl
  | cons a r ih =>
    cases d with
    | nil => simp at h
    | cons b d =>
      simp only [List.length_cons] at h
      simp only [dot, List.length_cons]
      rw [Finset.sum_range_succ', ih d (by omega)]
      simp [add_comm]

/-- The clamp of a trace, as the nearer bound (R91). -/
theorem clampTo_traceBound (v : Int) : clampTo traceBound v = max (-2147483647) (min 2147483647 v) := by
  unfold clampTo traceBound; split <;> [skip; split] <;> omega

/-- The clamp of a pilot sample, as the nearer bound (R52). -/
theorem clampTo_pilotBound (v : Int) : clampTo pilotBound v = max (-32767) (min 32767 v) := by
  unfold clampTo pilotBound; split <;> [skip; split] <;> omega

theorem peak_from (ys : List Int) (m : Nat) :
    let q := ys.foldl (fun m y => max m y.natAbs) m
    m ≤ q ∧ (∀ y ∈ ys, y.natAbs ≤ q) ∧ (q = m ∨ ∃ y ∈ ys, y.natAbs = q) := by
  induction ys generalizing m with
  | nil => simp
  | cons y ys ih =>
    obtain ⟨h1, h2, h3⟩ := ih (max m y.natAbs)
    simp only [List.foldl_cons]
    refine ⟨le_trans (le_max_left _ _) h1, ?_, ?_⟩
    · intro z hz
      rcases List.mem_cons.mp hz with rfl | hz
      · exact le_trans (le_max_right _ _) h1
      · exact h2 z hz
    · rcases h3 with h3 | ⟨z, hz, e⟩
      · rcases le_total m y.natAbs with hm | hm
        · exact .inr ⟨y, by simp, by rw [h3, max_eq_right hm]⟩
        · exact .inl (by rw [h3, max_eq_left hm])
      · exact .inr ⟨z, by simp [hz], e⟩

/-- The peak is the largest magnitude, 0 when there is none. -/
theorem peak_spec (ys : List Int) : (∀ y ∈ ys, y.natAbs ≤ peak ys) ∧ (peak ys = 0 ∨ ∃ y ∈ ys, y.natAbs = peak ys) :=
  (peak_from ys 0).2

/-- The bit length is the least exponent whose power of two exceeds the number (R92). -/
theorem bitLength_spec (x : Nat) : x < 2 ^ bitLength x ∧ (bitLength x = 0 ∨ 2 ^ (bitLength x - 1) ≤ x) := by
  unfold bitLength
  split
  · subst_vars; simp
  · rename_i h
    exact ⟨Nat.lt_log2_self, .inr (by simpa using Nat.log2_self_le h)⟩

/-- A trace result is its channel's, whatever else it says. -/
@[simp] theorem traceResult_channel (j : JobParams) (r : List Int) (c : Fin 480) (pol : Polarity)
    (w : List (Option Sample)) : (traceResult j r c pol w).channel = c := by
  unfold traceResult; dsimp only; split <;> rfl

/-- Which channels a snapshot names LIVE (R86). -/
theorem mem_liveChannels (sn : List SnapshotEntry) (h : sn.length = 480) (c : Fin 480) (pol : Polarity) :
    (c, pol) ∈ liveChannels sn ↔ sn[c.val]? = some { state := .live, polarity := pol } := by
  unfold liveChannels
  simp only [List.mem_filterMap, Prod.exists]
  constructor
  · rintro ⟨a, b, hm, hh⟩
    split at hh
    · rename_i hl
      simp only [Option.some.injEq, Prod.mk.injEq] at hh
      obtain ⟨rfl, rfl⟩ := hh
      obtain ⟨i, hi, he⟩ := List.getElem_of_mem hm
      simp only [List.getElem_zip, Prod.mk.injEq] at he
      obtain ⟨h1, h2⟩ := he
      obtain rfl : i = a.val := by rw [← h1]; simp
      rw [List.getElem?_eq_getElem (by omega), h2]
      obtain ⟨s, p⟩ := b
      simp at hl; simp [hl]
    · cases hh
  · intro hs
    refine ⟨c, { state := .live, polarity := pol }, ?_, by simp⟩
    rw [List.mem_iff_getElem]
    refine ⟨c.val, by simp [h], ?_⟩
    obtain ⟨h1, h2⟩ := List.getElem?_eq_some_iff.mp hs
    simp [h2]

end Sys2Proof.Machine
end

