-- ==== Sys2Proof/Laws/Bytes.lean ====
section
/-! SUPPORT. Laws of the byte order (R194): what is written little-endian is read back, and fields of joined byte runs. -/

namespace Sys2Proof.Machine

@[simp] theorem leBytes_length (n v : Nat) : (leBytes n v).length = n := by
  induction n generalizing v with
  | zero => rfl
  | succ n ih => simp [leBytes, ih]

theorem leNat_leBytes {n v : Nat} (h : v < 256 ^ n) : leNat (leBytes n v) = v := by
  induction n generalizing v with
  | zero => simp [leBytes, leNat] at *; omega
  | succ n ih =>
    have hv : v / 256 < 256 ^ n := by rw [Nat.div_lt_iff_lt_mul (by norm_num)]; rw [pow_succ] at h; exact h
    simp only [leBytes, leNat, ih hv, BitVec.toNat_ofNat]
    omega

theorem leNat_lt (bs : List Byte) : leNat bs < 256 ^ bs.length := by
  induction bs with
  | nil => simp [leNat]
  | cons b bs ih =>
    simp only [leNat, List.length_cons, pow_succ]
    have := b.isLt
    omega

theorem leNat_append (a b : List Byte) : leNat (a ++ b) = leNat a + 256 ^ a.length * leNat b := by
  induction a with
  | nil => simp [leNat]
  | cons x xs ih => simp only [List.cons_append, leNat, ih, List.length_cons, pow_succ]; ring

/-- A field that lies past the first run. -/
theorem field_skip {a b : List Byte} {off o len : Nat} (h : off = a.length + o) : field (a ++ b) off len = field b o len := by
  subst h
  simp [field, List.drop_append, List.drop_eq_nil_of_le]

/-- A field that is the first run. -/
theorem field_first {a b : List Byte} {len : Nat} (h : len = a.length) : field (a ++ b) 0 len = leNat a := by
  subst h
  simp [field]

/-- A field that is all there is. -/
theorem field_all {a : List Byte} {len : Nat} (h : a.length ≤ len) : field a 0 len = leNat a := by
  simp [field, List.take_of_length_le h]

/-- A little-endian field at the front is read back. -/
theorem field_leBytes {n v : Nat} {b : List Byte} (h : v < 256 ^ n) : field (leBytes n v ++ b) 0 n = v := by
  rw [field_first (by simp), leNat_leBytes h]

@[simp] theorem leNat_singleton (b : Byte) : leNat [b] = b.toNat := by simp [leNat]

theorem leBytes_one (v : Nat) : leBytes 1 v = [byteOf v] := rfl

theorem leBytes_add (m n v : Nat) : leBytes (m + n) v = leBytes m v ++ leBytes n (v / 256 ^ m) := by
  induction m generalizing v with
  | zero => simp [leBytes]
  | succ m ih =>
    rw [Nat.succ_add]
    simp only [leBytes, ih, List.cons_append, pow_succ, Nat.div_div_eq_div_mul, Nat.mul_comm]

/-- What is read little-endian is written back. -/
theorem leBytes_leNat (bs : List Byte) : leBytes bs.length (leNat bs) = bs := by
  induction bs with
  | nil => rfl
  | cons b bs ih =>
    have hb := b.isLt
    simp only [List.length_cons, leBytes, leNat]
    rw [show (b.toNat + 256 * leNat bs) / 256 = leNat bs by omega, ih]
    congr 1
    apply BitVec.eq_of_toNat_eq
    simp only [BitVec.toNat_ofNat]
    omega

/-- A field lies within its bytes. -/
theorem field_lt (p : List Byte) (off len : Nat) : field p off len < 256 ^ len :=
  lt_of_lt_of_le (leNat_lt ((p.drop off).take len)) (Nat.pow_le_pow_right (by norm_num) (by simp))

/-! ### Cutting runs of equal items -/

/-- Cut items joined again are the bytes they were cut from. -/
theorem chunks_flatten (size n : Nat) (p : List Byte) : (chunks size n p).flatten = p.take (size * n) := by
  induction n generalizing p with
  | zero => simp [chunks]
  | succ n ih => rw [chunks, List.flatten_cons, ih, Nat.mul_succ, Nat.add_comm, List.take_add]

/-- Bytes past the last item are not read. -/
theorem chunks_append (size n : Nat) (a b : List Byte) (h : size * n ≤ a.length) : chunks size n (a ++ b) = chunks size n a := by
  induction n generalizing a with
  | zero => rfl
  | succ n ih =>
    rw [Nat.mul_succ] at h
    rw [chunks, chunks, List.take_append_of_le_length (by omega), List.drop_append_of_le_length (by omega),
      ih _ (by simp; omega)]

/-- Every item cut from bytes that suffice has its size. -/
theorem chunks_each (size n : Nat) (p : List Byte) (h : size * n ≤ p.length) : ∀ b ∈ chunks size n p, b.length = size := by
  induction n generalizing p with
  | zero => simp [chunks]
  | succ n ih =>
    rw [Nat.mul_succ] at h
    intro b hb
    rcases List.mem_cons.mp hb with rfl | hb
    · simp; omega
    · exact ih (p.drop size) (by simp; omega) b hb

theorem chunks_length (size n : Nat) (p : List Byte) : (chunks size n p).length = n := by
  induction n generalizing p with
  | zero => rfl
  | succ n ih => simp [chunks, ih]

/-- The item of a number among the items cut. -/
theorem chunks_getElem? (size n : Nat) (p : List Byte) (j : Nat) (h : j < n) :
    (chunks size n p)[j]? = some ((p.drop (size * j)).take size) := by
  induction n generalizing p j with
  | zero => omega
  | succ n ih =>
    cases j with
    | zero => simp [chunks]
    | succ j =>
      simp only [chunks, List.getElem?_cons_succ]
      rw [ih _ _ (by omega), List.drop_drop]
      congr 2
      ring_nf

theorem chunks_flatMap {α : Type} (f : α → List Byte) (size : Nat) (xs : List α) (h : ∀ x ∈ xs, (f x).length = size) :
    chunks size xs.length (xs.flatMap f) = xs.map f := by
  induction xs with
  | nil => rfl
  | cons x xs ih =>
    have hx : (f x).length = size := h x (by simp)
    simp only [List.length_cons, List.flatMap_cons, chunks, List.map_cons]
    rw [List.take_append_of_le_length (by omega), List.drop_append_of_le_length (by omega)]
    rw [List.take_of_length_le (by omega), List.drop_of_length_le (by omega), List.nil_append,
      ih fun y hy => h y (by simp [hy])]

theorem flatMap_length {α : Type} (f : α → List Byte) (size : Nat) (xs : List α) (h : ∀ x ∈ xs, (f x).length = size) :
    (xs.flatMap f).length = size * xs.length := by
  induction xs with
  | nil => rfl
  | cons x xs ih =>
    have hx : (f x).length = size := h x (by simp)
    simp only [List.flatMap_cons, List.length_append, hx, ih fun y hy => h y (by simp [hy]), List.length_cons]
    ring

/-! ### Codes -/

/-- A code of a value of a list is below its length, and names that value. -/
theorem ofCode_codeOf {α : Type} [DecidableEq α] {l : List α} {a : α} (h : a ∈ l) : ofCode l (codeOf l a) = some a := by
  have hlt : l.idxOf a < l.length := List.idxOf_lt_length_iff.mpr h
  simp [ofCode, codeOf, hlt]

theorem codeOf_lt {α : Type} [DecidableEq α] {l : List α} {a : α} (h : a ∈ l) : codeOf l a < l.length :=
  List.idxOf_lt_length_iff.mpr h

/-- A code byte of a list of at most 256 values names the value. -/
theorem ofCode_codeByte {α : Type} [DecidableEq α] {l : List α} {a : α} (h : a ∈ l) (hl : l.length ≤ 256) :
    ofCode l (codeByte l a).toNat = some a := by
  have := codeOf_lt h
  rw [codeByte, byteOf, BitVec.toNat_ofNat, Nat.mod_eq_of_lt (by omega), ofCode_codeOf h]

/-- The number a code byte carries names the value. -/
theorem ofCode_eq {α : Type} [DecidableEq α] {l : List α} {a : α} (h : a ∈ l) (hl : l.length ≤ 256) {n : Nat}
    (hn : n = (codeByte l a).toNat) : ofCode l n = some a := by
  subst hn; exact ofCode_codeByte h hl

/-- All of a list of readings that each succeed. -/
theorem allSome_map {α β : Type} (f : α → Option β) (g : α → β) (l : List α) (h : ∀ x ∈ l, f x = some (g x)) :
    allSome (l.map f) = some (l.map g) := by
  induction l with
  | nil => rfl
  | cons x xs ih => simp only [List.map_cons, h x (by simp), allSome, ih fun y hy => h y (by simp [hy]), Option.map_some]

/-- What allSome answers is the list of the values, in order. -/
theorem allSome_eq_some {α : Type} {l : List (Option α)} {xs : List α} : allSome l = some xs ↔ l = xs.map some := by
  induction l generalizing xs with
  | nil => cases xs <;> simp [allSome]
  | cons a l ih =>
    cases a with
    | none => cases xs <;> simp [allSome]
    | some a => cases xs <;> simp [allSome, ih, Option.map_eq_some_iff, and_comm]

/-- allSome answers nothing exactly when one of the list is missing. -/
theorem allSome_eq_none {α : Type} (l : List (Option α)) : allSome l = none ↔ none ∈ l := by
  induction l with
  | nil => simp [allSome]
  | cons a l ih => cases a <;> simp [allSome, ih]

/-- No code beyond the last value names a value. -/
theorem ofCode_eq_none {α : Type} (l : List α) (c : Nat) : ofCode l c = none ↔ l.length ≤ c := by simp [ofCode]

/-- Bytes followed by their check pass it (R169). -/
theorem checkGood_append (bs : List Byte) : checkGood (bs ++ checkBytes bs) = true := by
  have : (checkBytes bs).length = 2 := rfl
  simp [checkGood, this]

/-- The fields of a REFDATA payload (R195). -/
theorem refdataPayload_read (i : Fin 8) (off : Nat) (rs : List RefSample) (h : rs.length < 65536) (ho : off < 65536) :
    field (refdataPayload i.val off rs) 1 2 = off ∧ field (refdataPayload i.val off rs) 3 2 = rs.length ∧
    readRefSamples (refdataPayload i.val off rs) = rs ∧ (refdataPayload i.val off rs).length = 5 + 2 * rs.length := by
  have hp : refdataPayload i.val off rs =
      leBytes 1 i.val ++ (leBytes 2 off ++ (leBytes 2 rs.length ++ rs.flatMap fun r => leBytes 2 r.toNat)) := by
    simp [refdataPayload]
  have f3 : field (refdataPayload i.val off rs) 3 2 = rs.length := by
    rw [hp, field_skip (o := 2) (by simp), field_skip (o := 0) (by simp), field_leBytes]; omega
  refine ⟨?_, f3, ?_, ?_⟩
  · rw [hp, field_skip (o := 0) (by simp), field_leBytes]; omega
  · have hd : (refdataPayload i.val off rs).drop 5 = rs.flatMap fun r => leBytes 2 r.toNat := by
      rw [hp, ← List.append_assoc, ← List.append_assoc]
      rw [List.drop_append_of_le_length (by simp), List.drop_of_length_le (by simp)]; rfl
    unfold readRefSamples
    rw [f3, hd, chunks_flatMap _ _ _ (by simp), List.map_map]
    conv_rhs => rw [← List.map_id rs]
    apply List.map_congr_left
    intro d _
    have := d.isLt
    simp only [Function.comp, id]
    rw [leNat_leBytes (by omega)]
    simp
  · rw [hp]; simp; ring

/-- A channel description is read back (section 11.1). -/
theorem readDescription_bytes (d : ChannelEntry) (h1 : d.station < 4294967296) (h2 : d.line < 65536) :
    readDescription (descriptionBytes d) = some d := by
  have a0 : field (descriptionBytes d) 0 4 = d.station := by
    unfold descriptionBytes; rw [List.append_assoc, field_leBytes]; omega
  have a1 : field (descriptionBytes d) 4 2 = d.line := by
    unfold descriptionBytes; rw [List.append_assoc, field_skip (o := 0) (by simp), field_leBytes]; omega
  have a2 : field (descriptionBytes d) 6 1 = (attributesByte d).toNat := by
    unfold descriptionBytes
    rw [List.append_assoc, field_skip (o := 2) (by simp), field_skip (o := 0) (by simp)]; simp [field]
  obtain ⟨st, li, c, p, s⟩ := d
  have a3 : (attributesByte ⟨st, li, c, p, s⟩).toNat =
      codeOf componentList c + 4 * codeOf polarityList p + 8 * codeOf channelStateList s := by
    cases c <;> cases p <;> cases s <;> rfl
  unfold readDescription
  simp only [a0, a1, a2, a3]
  cases c <;> cases p <;> cases s <;> simp [codeOf, componentList, polarityList, channelStateList, ofCode]

end Sys2Proof.Machine
end

