-- ==== Sys2Proof/Laws/State.lean ====
section
/-! SUPPORT. What each update of State leaves of each field: one lemma for each field and update. -/

namespace Sys2Proof.Machine

variable (s : State)

/-! ### State.post -/

@[simp] theorem State.post_channels (b : NoticeBody) : (s.post b).channels = s.channels := by unfold State.post; split <;> rfl
@[simp] theorem State.post_interval (b : NoticeBody) : (s.post b).interval = s.interval := by unfold State.post; split <;> rfl
@[simp] theorem State.post_ports (b : NoticeBody) : (s.post b).ports = s.ports := by unfold State.post; split <;> rfl
@[simp] theorem State.post_slots (b : NoticeBody) : (s.post b).slots = s.slots := by unfold State.post; split <;> rfl
@[simp] theorem State.post_sweeps (b : NoticeBody) : (s.post b).sweeps = s.sweeps := by unfold State.post; split <;> rfl
@[simp] theorem State.post_lanes (b : NoticeBody) : (s.post b).lanes = s.lanes := by unfold State.post; split <;> rfl
@[simp] theorem State.post_qcPolicy (b : NoticeBody) : (s.post b).qcPolicy = s.qcPolicy := by unfold State.post; split <;> rfl
@[simp] theorem State.post_stackTable (b : NoticeBody) : (s.post b).stackTable = s.stackTable := by unfold State.post; split <;> rfl
@[simp] theorem State.post_oq (b : NoticeBody) : (s.post b).oq = s.oq := by unfold State.post; split <;> rfl
@[simp] theorem State.post_cmd (b : NoticeBody) : (s.post b).cmd = s.cmd := by unfold State.post; split <;> rfl
@[simp] theorem State.post_pending (b : NoticeBody) : (s.post b).pending = s.pending := by unfold State.post; split <;> rfl

/-! ### State.updPort -/

@[simp] theorem State.updPort_channels (p : Fin 4) (f : Port → Port) : (s.updPort p f).channels = s.channels := rfl
@[simp] theorem State.updPort_interval (p : Fin 4) (f : Port → Port) : (s.updPort p f).interval = s.interval := rfl
@[simp] theorem State.updPort_slots (p : Fin 4) (f : Port → Port) : (s.updPort p f).slots = s.slots := rfl
@[simp] theorem State.updPort_sweeps (p : Fin 4) (f : Port → Port) : (s.updPort p f).sweeps = s.sweeps := rfl
@[simp] theorem State.updPort_lanes (p : Fin 4) (f : Port → Port) : (s.updPort p f).lanes = s.lanes := rfl
@[simp] theorem State.updPort_qcPolicy (p : Fin 4) (f : Port → Port) : (s.updPort p f).qcPolicy = s.qcPolicy := rfl
@[simp] theorem State.updPort_stackTable (p : Fin 4) (f : Port → Port) : (s.updPort p f).stackTable = s.stackTable := rfl
@[simp] theorem State.updPort_oq (p : Fin 4) (f : Port → Port) : (s.updPort p f).oq = s.oq := rfl
@[simp] theorem State.updPort_nq (p : Fin 4) (f : Port → Port) : (s.updPort p f).nq = s.nq := rfl
@[simp] theorem State.updPort_cmd (p : Fin 4) (f : Port → Port) : (s.updPort p f).cmd = s.cmd := rfl
@[simp] theorem State.updPort_pending (p : Fin 4) (f : Port → Port) : (s.updPort p f).pending = s.pending := rfl

/-! ### State.setLane -/

@[simp] theorem State.setLane_channels (l : Fin 4) (x : Lane) : (s.setLane l x).channels = s.channels := rfl
@[simp] theorem State.setLane_interval (l : Fin 4) (x : Lane) : (s.setLane l x).interval = s.interval := rfl
@[simp] theorem State.setLane_ports (l : Fin 4) (x : Lane) : (s.setLane l x).ports = s.ports := rfl
@[simp] theorem State.setLane_slots (l : Fin 4) (x : Lane) : (s.setLane l x).slots = s.slots := rfl
@[simp] theorem State.setLane_sweeps (l : Fin 4) (x : Lane) : (s.setLane l x).sweeps = s.sweeps := rfl
@[simp] theorem State.setLane_qcPolicy (l : Fin 4) (x : Lane) : (s.setLane l x).qcPolicy = s.qcPolicy := rfl
@[simp] theorem State.setLane_stackTable (l : Fin 4) (x : Lane) : (s.setLane l x).stackTable = s.stackTable := rfl
@[simp] theorem State.setLane_oq (l : Fin 4) (x : Lane) : (s.setLane l x).oq = s.oq := rfl
@[simp] theorem State.setLane_nq (l : Fin 4) (x : Lane) : (s.setLane l x).nq = s.nq := rfl
@[simp] theorem State.setLane_cmd (l : Fin 4) (x : Lane) : (s.setLane l x).cmd = s.cmd := rfl
@[simp] theorem State.setLane_pending (l : Fin 4) (x : Lane) : (s.setLane l x).pending = s.pending := rfl

/-! ### State.updSlot -/

@[simp] theorem State.updSlot_channels (i : Fin 8) (f : RefSlot → RefSlot) : (s.updSlot i f).channels = s.channels := rfl
@[simp] theorem State.updSlot_interval (i : Fin 8) (f : RefSlot → RefSlot) : (s.updSlot i f).interval = s.interval := rfl
@[simp] theorem State.updSlot_ports (i : Fin 8) (f : RefSlot → RefSlot) : (s.updSlot i f).ports = s.ports := rfl
@[simp] theorem State.updSlot_sweeps (i : Fin 8) (f : RefSlot → RefSlot) : (s.updSlot i f).sweeps = s.sweeps := rfl
@[simp] theorem State.updSlot_lanes (i : Fin 8) (f : RefSlot → RefSlot) : (s.updSlot i f).lanes = s.lanes := rfl
@[simp] theorem State.updSlot_qcPolicy (i : Fin 8) (f : RefSlot → RefSlot) : (s.updSlot i f).qcPolicy = s.qcPolicy := rfl
@[simp] theorem State.updSlot_stackTable (i : Fin 8) (f : RefSlot → RefSlot) : (s.updSlot i f).stackTable = s.stackTable := rfl
@[simp] theorem State.updSlot_oq (i : Fin 8) (f : RefSlot → RefSlot) : (s.updSlot i f).oq = s.oq := rfl
@[simp] theorem State.updSlot_nq (i : Fin 8) (f : RefSlot → RefSlot) : (s.updSlot i f).nq = s.nq := rfl
@[simp] theorem State.updSlot_cmd (i : Fin 8) (f : RefSlot → RefSlot) : (s.updSlot i f).cmd = s.cmd := rfl
@[simp] theorem State.updSlot_pending (i : Fin 8) (f : RefSlot → RefSlot) : (s.updSlot i f).pending = s.pending := rfl

/-! ### State.writeFrame -/

@[simp] theorem State.writeFrame_channels (p : Fin 4) (i : Nat) (ds : List Sample) : (s.writeFrame p i ds).channels = s.channels := rfl
@[simp] theorem State.writeFrame_interval (p : Fin 4) (i : Nat) (ds : List Sample) : (s.writeFrame p i ds).interval = s.interval := rfl
@[simp] theorem State.writeFrame_slots (p : Fin 4) (i : Nat) (ds : List Sample) : (s.writeFrame p i ds).slots = s.slots := rfl
@[simp] theorem State.writeFrame_sweeps (p : Fin 4) (i : Nat) (ds : List Sample) : (s.writeFrame p i ds).sweeps = s.sweeps := rfl
@[simp] theorem State.writeFrame_lanes (p : Fin 4) (i : Nat) (ds : List Sample) : (s.writeFrame p i ds).lanes = s.lanes := rfl
@[simp] theorem State.writeFrame_qcPolicy (p : Fin 4) (i : Nat) (ds : List Sample) : (s.writeFrame p i ds).qcPolicy = s.qcPolicy := rfl
@[simp] theorem State.writeFrame_stackTable (p : Fin 4) (i : Nat) (ds : List Sample) : (s.writeFrame p i ds).stackTable = s.stackTable := rfl
@[simp] theorem State.writeFrame_oq (p : Fin 4) (i : Nat) (ds : List Sample) : (s.writeFrame p i ds).oq = s.oq := rfl
@[simp] theorem State.writeFrame_nq (p : Fin 4) (i : Nat) (ds : List Sample) : (s.writeFrame p i ds).nq = s.nq := rfl
@[simp] theorem State.writeFrame_cmd (p : Fin 4) (i : Nat) (ds : List Sample) : (s.writeFrame p i ds).cmd = s.cmd := rfl
@[simp] theorem State.writeFrame_pending (p : Fin 4) (i : Nat) (ds : List Sample) : (s.writeFrame p i ds).pending = s.pending := rfl

/-! ### State.updSweep -/

@[simp] theorem State.updSweep_channels (t : Nat) (f : SweepEntry → SweepEntry) : (s.updSweep t f).channels = s.channels := rfl
@[simp] theorem State.updSweep_interval (t : Nat) (f : SweepEntry → SweepEntry) : (s.updSweep t f).interval = s.interval := rfl
@[simp] theorem State.updSweep_ports (t : Nat) (f : SweepEntry → SweepEntry) : (s.updSweep t f).ports = s.ports := rfl
@[simp] theorem State.updSweep_slots (t : Nat) (f : SweepEntry → SweepEntry) : (s.updSweep t f).slots = s.slots := rfl
@[simp] theorem State.updSweep_lanes (t : Nat) (f : SweepEntry → SweepEntry) : (s.updSweep t f).lanes = s.lanes := rfl
@[simp] theorem State.updSweep_qcPolicy (t : Nat) (f : SweepEntry → SweepEntry) : (s.updSweep t f).qcPolicy = s.qcPolicy := rfl
@[simp] theorem State.updSweep_stackTable (t : Nat) (f : SweepEntry → SweepEntry) : (s.updSweep t f).stackTable = s.stackTable := rfl
@[simp] theorem State.updSweep_oq (t : Nat) (f : SweepEntry → SweepEntry) : (s.updSweep t f).oq = s.oq := rfl
@[simp] theorem State.updSweep_nq (t : Nat) (f : SweepEntry → SweepEntry) : (s.updSweep t f).nq = s.nq := rfl
@[simp] theorem State.updSweep_cmd (t : Nat) (f : SweepEntry → SweepEntry) : (s.updSweep t f).cmd = s.cmd := rfl
@[simp] theorem State.updSweep_pending (t : Nat) (f : SweepEntry → SweepEntry) : (s.updSweep t f).pending = s.pending := rfl

/-! ### State.dropSweep -/

@[simp] theorem State.dropSweep_channels (t : Nat) : (s.dropSweep t).channels = s.channels := rfl
@[simp] theorem State.dropSweep_interval (t : Nat) : (s.dropSweep t).interval = s.interval := rfl
@[simp] theorem State.dropSweep_ports (t : Nat) : (s.dropSweep t).ports = s.ports := rfl
@[simp] theorem State.dropSweep_slots (t : Nat) : (s.dropSweep t).slots = s.slots := rfl
@[simp] theorem State.dropSweep_lanes (t : Nat) : (s.dropSweep t).lanes = s.lanes := rfl
@[simp] theorem State.dropSweep_qcPolicy (t : Nat) : (s.dropSweep t).qcPolicy = s.qcPolicy := rfl
@[simp] theorem State.dropSweep_stackTable (t : Nat) : (s.dropSweep t).stackTable = s.stackTable := rfl
@[simp] theorem State.dropSweep_oq (t : Nat) : (s.dropSweep t).oq = s.oq := rfl
@[simp] theorem State.dropSweep_nq (t : Nat) : (s.dropSweep t).nq = s.nq := rfl
@[simp] theorem State.dropSweep_cmd (t : Nat) : (s.dropSweep t).cmd = s.cmd := rfl
@[simp] theorem State.dropSweep_pending (t : Nat) : (s.dropSweep t).pending = s.pending := rfl

/-! ### State.useSlot -/

@[simp] theorem State.useSlot_channels (r : Reference) : (s.useSlot r).channels = s.channels := by cases r <;> rfl
@[simp] theorem State.useSlot_interval (r : Reference) : (s.useSlot r).interval = s.interval := by cases r <;> rfl
@[simp] theorem State.useSlot_ports (r : Reference) : (s.useSlot r).ports = s.ports := by cases r <;> rfl
@[simp] theorem State.useSlot_sweeps (r : Reference) : (s.useSlot r).sweeps = s.sweeps := by cases r <;> rfl
@[simp] theorem State.useSlot_lanes (r : Reference) : (s.useSlot r).lanes = s.lanes := by cases r <;> rfl
@[simp] theorem State.useSlot_qcPolicy (r : Reference) : (s.useSlot r).qcPolicy = s.qcPolicy := by cases r <;> rfl
@[simp] theorem State.useSlot_stackTable (r : Reference) : (s.useSlot r).stackTable = s.stackTable := by cases r <;> rfl
@[simp] theorem State.useSlot_oq (r : Reference) : (s.useSlot r).oq = s.oq := by cases r <;> rfl
@[simp] theorem State.useSlot_nq (r : Reference) : (s.useSlot r).nq = s.nq := by cases r <;> rfl
@[simp] theorem State.useSlot_cmd (r : Reference) : (s.useSlot r).cmd = s.cmd := by cases r <;> rfl
@[simp] theorem State.useSlot_pending (r : Reference) : (s.useSlot r).pending = s.pending := by cases r <;> rfl

/-! ### State.unuseSlot -/

@[simp] theorem State.unuseSlot_channels (r : Reference) : (s.unuseSlot r).channels = s.channels := by cases r <;> rfl
@[simp] theorem State.unuseSlot_interval (r : Reference) : (s.unuseSlot r).interval = s.interval := by cases r <;> rfl
@[simp] theorem State.unuseSlot_ports (r : Reference) : (s.unuseSlot r).ports = s.ports := by cases r <;> rfl
@[simp] theorem State.unuseSlot_sweeps (r : Reference) : (s.unuseSlot r).sweeps = s.sweeps := by cases r <;> rfl
@[simp] theorem State.unuseSlot_lanes (r : Reference) : (s.unuseSlot r).lanes = s.lanes := by cases r <;> rfl
@[simp] theorem State.unuseSlot_qcPolicy (r : Reference) : (s.unuseSlot r).qcPolicy = s.qcPolicy := by cases r <;> rfl
@[simp] theorem State.unuseSlot_stackTable (r : Reference) : (s.unuseSlot r).stackTable = s.stackTable := by cases r <;> rfl
@[simp] theorem State.unuseSlot_oq (r : Reference) : (s.unuseSlot r).oq = s.oq := by cases r <;> rfl
@[simp] theorem State.unuseSlot_nq (r : Reference) : (s.unuseSlot r).nq = s.nq := by cases r <;> rfl
@[simp] theorem State.unuseSlot_cmd (r : Reference) : (s.unuseSlot r).cmd = s.cmd := by cases r <;> rfl
@[simp] theorem State.unuseSlot_pending (r : Reference) : (s.unuseSlot r).pending = s.pending := by cases r <;> rfl

/-! ### State.freeLane -/

@[simp] theorem State.freeLane_channels (l : Option (Fin 4)) : (s.freeLane l).channels = s.channels := by cases l <;> rfl
@[simp] theorem State.freeLane_interval (l : Option (Fin 4)) : (s.freeLane l).interval = s.interval := by cases l <;> rfl
@[simp] theorem State.freeLane_ports (l : Option (Fin 4)) : (s.freeLane l).ports = s.ports := by cases l <;> rfl
@[simp] theorem State.freeLane_slots (l : Option (Fin 4)) : (s.freeLane l).slots = s.slots := by cases l <;> rfl
@[simp] theorem State.freeLane_sweeps (l : Option (Fin 4)) : (s.freeLane l).sweeps = s.sweeps := by cases l <;> rfl
@[simp] theorem State.freeLane_qcPolicy (l : Option (Fin 4)) : (s.freeLane l).qcPolicy = s.qcPolicy := by cases l <;> rfl
@[simp] theorem State.freeLane_stackTable (l : Option (Fin 4)) : (s.freeLane l).stackTable = s.stackTable := by cases l <;> rfl
@[simp] theorem State.freeLane_oq (l : Option (Fin 4)) : (s.freeLane l).oq = s.oq := by cases l <;> rfl
@[simp] theorem State.freeLane_nq (l : Option (Fin 4)) : (s.freeLane l).nq = s.nq := by cases l <;> rfl
@[simp] theorem State.freeLane_cmd (l : Option (Fin 4)) : (s.freeLane l).cmd = s.cmd := by cases l <;> rfl
@[simp] theorem State.freeLane_pending (l : Option (Fin 4)) : (s.freeLane l).pending = s.pending := by cases l <;> rfl

/-! ### State.updStack -/

@[simp] theorem State.updStack_channels (vp : Nat) (f : Stack → Stack) : (s.updStack vp f).channels = s.channels := rfl
@[simp] theorem State.updStack_interval (vp : Nat) (f : Stack → Stack) : (s.updStack vp f).interval = s.interval := rfl
@[simp] theorem State.updStack_ports (vp : Nat) (f : Stack → Stack) : (s.updStack vp f).ports = s.ports := rfl
@[simp] theorem State.updStack_slots (vp : Nat) (f : Stack → Stack) : (s.updStack vp f).slots = s.slots := rfl
@[simp] theorem State.updStack_sweeps (vp : Nat) (f : Stack → Stack) : (s.updStack vp f).sweeps = s.sweeps := rfl
@[simp] theorem State.updStack_lanes (vp : Nat) (f : Stack → Stack) : (s.updStack vp f).lanes = s.lanes := rfl
@[simp] theorem State.updStack_qcPolicy (vp : Nat) (f : Stack → Stack) : (s.updStack vp f).qcPolicy = s.qcPolicy := rfl
@[simp] theorem State.updStack_oq (vp : Nat) (f : Stack → Stack) : (s.updStack vp f).oq = s.oq := rfl
@[simp] theorem State.updStack_nq (vp : Nat) (f : Stack → Stack) : (s.updStack vp f).nq = s.nq := rfl
@[simp] theorem State.updStack_cmd (vp : Nat) (f : Stack → Stack) : (s.updStack vp f).cmd = s.cmd := rfl
@[simp] theorem State.updStack_pending (vp : Nat) (f : Stack → Stack) : (s.updStack vp f).pending = s.pending := rfl

/-! ### State.dropStack -/

@[simp] theorem State.dropStack_channels (vp : Nat) : (s.dropStack vp).channels = s.channels := rfl
@[simp] theorem State.dropStack_interval (vp : Nat) : (s.dropStack vp).interval = s.interval := rfl
@[simp] theorem State.dropStack_ports (vp : Nat) : (s.dropStack vp).ports = s.ports := rfl
@[simp] theorem State.dropStack_slots (vp : Nat) : (s.dropStack vp).slots = s.slots := rfl
@[simp] theorem State.dropStack_sweeps (vp : Nat) : (s.dropStack vp).sweeps = s.sweeps := rfl
@[simp] theorem State.dropStack_lanes (vp : Nat) : (s.dropStack vp).lanes = s.lanes := rfl
@[simp] theorem State.dropStack_qcPolicy (vp : Nat) : (s.dropStack vp).qcPolicy = s.qcPolicy := rfl
@[simp] theorem State.dropStack_oq (vp : Nat) : (s.dropStack vp).oq = s.oq := rfl
@[simp] theorem State.dropStack_nq (vp : Nat) : (s.dropStack vp).nq = s.nq := rfl
@[simp] theorem State.dropStack_cmd (vp : Nat) : (s.dropStack vp).cmd = s.cmd := rfl
@[simp] theorem State.dropStack_pending (vp : Nat) : (s.dropStack vp).pending = s.pending := rfl

/-! ### State.grantSpace -/

@[simp] theorem State.grantSpace_channels (vp n : Nat) : (s.grantSpace vp n).channels = s.channels := rfl
@[simp] theorem State.grantSpace_interval (vp n : Nat) : (s.grantSpace vp n).interval = s.interval := rfl
@[simp] theorem State.grantSpace_ports (vp n : Nat) : (s.grantSpace vp n).ports = s.ports := rfl
@[simp] theorem State.grantSpace_slots (vp n : Nat) : (s.grantSpace vp n).slots = s.slots := rfl
@[simp] theorem State.grantSpace_sweeps (vp n : Nat) : (s.grantSpace vp n).sweeps = s.sweeps := rfl
@[simp] theorem State.grantSpace_lanes (vp n : Nat) : (s.grantSpace vp n).lanes = s.lanes := rfl
@[simp] theorem State.grantSpace_qcPolicy (vp n : Nat) : (s.grantSpace vp n).qcPolicy = s.qcPolicy := rfl
@[simp] theorem State.grantSpace_nq (vp n : Nat) : (s.grantSpace vp n).nq = s.nq := rfl
@[simp] theorem State.grantSpace_cmd (vp n : Nat) : (s.grantSpace vp n).cmd = s.cmd := rfl
@[simp] theorem State.grantSpace_pending (vp n : Nat) : (s.grantSpace vp n).pending = s.pending := rfl

/-! ### State.leaveHeld -/

@[simp] theorem State.leaveHeld_channels (vp : Nat) : (s.leaveHeld vp).channels = s.channels := rfl
@[simp] theorem State.leaveHeld_interval (vp : Nat) : (s.leaveHeld vp).interval = s.interval := rfl
@[simp] theorem State.leaveHeld_ports (vp : Nat) : (s.leaveHeld vp).ports = s.ports := rfl
@[simp] theorem State.leaveHeld_slots (vp : Nat) : (s.leaveHeld vp).slots = s.slots := rfl
@[simp] theorem State.leaveHeld_sweeps (vp : Nat) : (s.leaveHeld vp).sweeps = s.sweeps := rfl
@[simp] theorem State.leaveHeld_lanes (vp : Nat) : (s.leaveHeld vp).lanes = s.lanes := rfl
@[simp] theorem State.leaveHeld_qcPolicy (vp : Nat) : (s.leaveHeld vp).qcPolicy = s.qcPolicy := rfl
@[simp] theorem State.leaveHeld_stackTable (vp : Nat) : (s.leaveHeld vp).stackTable = s.stackTable := rfl
@[simp] theorem State.leaveHeld_nq (vp : Nat) : (s.leaveHeld vp).nq = s.nq := rfl
@[simp] theorem State.leaveHeld_cmd (vp : Nat) : (s.leaveHeld vp).cmd = s.cmd := rfl
@[simp] theorem State.leaveHeld_pending (vp : Nat) : (s.leaveHeld vp).pending = s.pending := rfl

/-! ### State.unreserve -/

@[simp] theorem State.unreserve_channels (vp : Nat) : (s.unreserve vp).channels = s.channels := rfl
@[simp] theorem State.unreserve_interval (vp : Nat) : (s.unreserve vp).interval = s.interval := rfl
@[simp] theorem State.unreserve_ports (vp : Nat) : (s.unreserve vp).ports = s.ports := rfl
@[simp] theorem State.unreserve_slots (vp : Nat) : (s.unreserve vp).slots = s.slots := rfl
@[simp] theorem State.unreserve_sweeps (vp : Nat) : (s.unreserve vp).sweeps = s.sweeps := rfl
@[simp] theorem State.unreserve_lanes (vp : Nat) : (s.unreserve vp).lanes = s.lanes := rfl
@[simp] theorem State.unreserve_qcPolicy (vp : Nat) : (s.unreserve vp).qcPolicy = s.qcPolicy := rfl
@[simp] theorem State.unreserve_stackTable (vp : Nat) : (s.unreserve vp).stackTable = s.stackTable := rfl
@[simp] theorem State.unreserve_nq (vp : Nat) : (s.unreserve vp).nq = s.nq := rfl
@[simp] theorem State.unreserve_cmd (vp : Nat) : (s.unreserve vp).cmd = s.cmd := rfl
@[simp] theorem State.unreserve_pending (vp : Nat) : (s.unreserve vp).pending = s.pending := rfl

/-! ### State.adoptBlockSize -/

@[simp] theorem State.adoptBlockSize_channels : s.adoptBlockSize.channels = s.channels := rfl
@[simp] theorem State.adoptBlockSize_interval : s.adoptBlockSize.interval = s.interval := rfl
@[simp] theorem State.adoptBlockSize_ports : s.adoptBlockSize.ports = s.ports := rfl
@[simp] theorem State.adoptBlockSize_slots : s.adoptBlockSize.slots = s.slots := rfl
@[simp] theorem State.adoptBlockSize_sweeps : s.adoptBlockSize.sweeps = s.sweeps := rfl
@[simp] theorem State.adoptBlockSize_lanes : s.adoptBlockSize.lanes = s.lanes := rfl
@[simp] theorem State.adoptBlockSize_qcPolicy : s.adoptBlockSize.qcPolicy = s.qcPolicy := rfl
@[simp] theorem State.adoptBlockSize_stackTable : s.adoptBlockSize.stackTable = s.stackTable := rfl
@[simp] theorem State.adoptBlockSize_nq : s.adoptBlockSize.nq = s.nq := rfl
@[simp] theorem State.adoptBlockSize_cmd : s.adoptBlockSize.cmd = s.cmd := rfl
@[simp] theorem State.adoptBlockSize_pending : s.adoptBlockSize.pending = s.pending := rfl

/-! ### State.readinessAll -/

@[simp] theorem State.readinessAll_channels : s.readinessAll.channels = s.channels := rfl
@[simp] theorem State.readinessAll_interval : s.readinessAll.interval = s.interval := rfl
@[simp] theorem State.readinessAll_ports : s.readinessAll.ports = s.ports := rfl
@[simp] theorem State.readinessAll_slots : s.readinessAll.slots = s.slots := rfl
@[simp] theorem State.readinessAll_lanes : s.readinessAll.lanes = s.lanes := rfl
@[simp] theorem State.readinessAll_qcPolicy : s.readinessAll.qcPolicy = s.qcPolicy := rfl
@[simp] theorem State.readinessAll_stackTable : s.readinessAll.stackTable = s.stackTable := rfl
@[simp] theorem State.readinessAll_oq : s.readinessAll.oq = s.oq := rfl
@[simp] theorem State.readinessAll_nq : s.readinessAll.nq = s.nq := rfl
@[simp] theorem State.readinessAll_cmd : s.readinessAll.cmd = s.cmd := rfl
@[simp] theorem State.readinessAll_pending : s.readinessAll.pending = s.pending := rfl

/-! ### State.dequeue -/

@[simp] theorem State.dequeue_channels : s.dequeue.channels = s.channels := rfl
@[simp] theorem State.dequeue_interval : s.dequeue.interval = s.interval := rfl
@[simp] theorem State.dequeue_ports : s.dequeue.ports = s.ports := rfl
@[simp] theorem State.dequeue_slots : s.dequeue.slots = s.slots := rfl
@[simp] theorem State.dequeue_sweeps : s.dequeue.sweeps = s.sweeps := rfl
@[simp] theorem State.dequeue_lanes : s.dequeue.lanes = s.lanes := rfl
@[simp] theorem State.dequeue_qcPolicy : s.dequeue.qcPolicy = s.qcPolicy := rfl
@[simp] theorem State.dequeue_stackTable : s.dequeue.stackTable = s.stackTable := rfl
@[simp] theorem State.dequeue_oq : s.dequeue.oq = s.oq := rfl
@[simp] theorem State.dequeue_nq : s.dequeue.nq = s.nq := rfl
@[simp] theorem State.dequeue_pending : s.dequeue.pending = s.pending := rfl

/-! ### State.deselect -/

@[simp] theorem State.deselect_channels : s.deselect.channels = s.channels := rfl
@[simp] theorem State.deselect_interval : s.deselect.interval = s.interval := rfl
@[simp] theorem State.deselect_ports : s.deselect.ports = s.ports := rfl
@[simp] theorem State.deselect_slots : s.deselect.slots = s.slots := rfl
@[simp] theorem State.deselect_sweeps : s.deselect.sweeps = s.sweeps := rfl
@[simp] theorem State.deselect_lanes : s.deselect.lanes = s.lanes := rfl
@[simp] theorem State.deselect_qcPolicy : s.deselect.qcPolicy = s.qcPolicy := rfl
@[simp] theorem State.deselect_stackTable : s.deselect.stackTable = s.stackTable := rfl
@[simp] theorem State.deselect_oq : s.deselect.oq = s.oq := rfl
@[simp] theorem State.deselect_nq : s.deselect.nq = s.nq := rfl
@[simp] theorem State.deselect_pending : s.deselect.pending = s.pending := rfl

/-! ### State.enqueue -/

@[simp] theorem State.enqueue_channels (r : Request) : (s.enqueue r).channels = s.channels := rfl
@[simp] theorem State.enqueue_interval (r : Request) : (s.enqueue r).interval = s.interval := rfl
@[simp] theorem State.enqueue_ports (r : Request) : (s.enqueue r).ports = s.ports := rfl
@[simp] theorem State.enqueue_slots (r : Request) : (s.enqueue r).slots = s.slots := rfl
@[simp] theorem State.enqueue_sweeps (r : Request) : (s.enqueue r).sweeps = s.sweeps := rfl
@[simp] theorem State.enqueue_lanes (r : Request) : (s.enqueue r).lanes = s.lanes := rfl
@[simp] theorem State.enqueue_qcPolicy (r : Request) : (s.enqueue r).qcPolicy = s.qcPolicy := rfl
@[simp] theorem State.enqueue_stackTable (r : Request) : (s.enqueue r).stackTable = s.stackTable := rfl
@[simp] theorem State.enqueue_oq (r : Request) : (s.enqueue r).oq = s.oq := rfl
@[simp] theorem State.enqueue_nq (r : Request) : (s.enqueue r).nq = s.nq := rfl
@[simp] theorem State.enqueue_pending (r : Request) : (s.enqueue r).pending = s.pending := rfl

/-! ### State.send -/

@[simp] theorem State.send_channels (k : Byte) (rep : Reply) : (s.send k rep).channels = s.channels := rfl
@[simp] theorem State.send_interval (k : Byte) (rep : Reply) : (s.send k rep).interval = s.interval := rfl
@[simp] theorem State.send_ports (k : Byte) (rep : Reply) : (s.send k rep).ports = s.ports := rfl
@[simp] theorem State.send_slots (k : Byte) (rep : Reply) : (s.send k rep).slots = s.slots := rfl
@[simp] theorem State.send_sweeps (k : Byte) (rep : Reply) : (s.send k rep).sweeps = s.sweeps := rfl
@[simp] theorem State.send_lanes (k : Byte) (rep : Reply) : (s.send k rep).lanes = s.lanes := rfl
@[simp] theorem State.send_qcPolicy (k : Byte) (rep : Reply) : (s.send k rep).qcPolicy = s.qcPolicy := rfl
@[simp] theorem State.send_stackTable (k : Byte) (rep : Reply) : (s.send k rep).stackTable = s.stackTable := rfl
@[simp] theorem State.send_oq (k : Byte) (rep : Reply) : (s.send k rep).oq = s.oq := rfl
@[simp] theorem State.send_nq (k : Byte) (rep : Reply) : (s.send k rep).nq = s.nq := rfl
@[simp] theorem State.send_pending (k : Byte) (rep : Reply) : (s.send k rep).pending = s.pending := rfl

/-! ### State.initEnd -/

@[simp] theorem State.initEnd_channels : s.initEnd.channels = s.channels := rfl
@[simp] theorem State.initEnd_interval : s.initEnd.interval = s.interval := rfl
@[simp] theorem State.initEnd_ports : s.initEnd.ports = s.ports := rfl
@[simp] theorem State.initEnd_slots : s.initEnd.slots = s.slots := rfl
@[simp] theorem State.initEnd_sweeps : s.initEnd.sweeps = s.sweeps := rfl
@[simp] theorem State.initEnd_lanes : s.initEnd.lanes = s.lanes := rfl
@[simp] theorem State.initEnd_qcPolicy : s.initEnd.qcPolicy = s.qcPolicy := rfl
@[simp] theorem State.initEnd_stackTable : s.initEnd.stackTable = s.stackTable := rfl
@[simp] theorem State.initEnd_oq : s.initEnd.oq = s.oq := rfl
@[simp] theorem State.initEnd_nq : s.initEnd.nq = s.nq := rfl
@[simp] theorem State.initEnd_pending : s.initEnd.pending = s.pending := rfl

/-! ### State.holdStack -/

@[simp] theorem State.holdStack_channels (vp n : Nat) : (s.holdStack vp n).channels = s.channels := by simp [State.holdStack]
@[simp] theorem State.holdStack_interval (vp n : Nat) : (s.holdStack vp n).interval = s.interval := by simp [State.holdStack]
@[simp] theorem State.holdStack_ports (vp n : Nat) : (s.holdStack vp n).ports = s.ports := by simp [State.holdStack]
@[simp] theorem State.holdStack_slots (vp n : Nat) : (s.holdStack vp n).slots = s.slots := by simp [State.holdStack]
@[simp] theorem State.holdStack_sweeps (vp n : Nat) : (s.holdStack vp n).sweeps = s.sweeps := by simp [State.holdStack]
@[simp] theorem State.holdStack_lanes (vp n : Nat) : (s.holdStack vp n).lanes = s.lanes := by simp [State.holdStack]
@[simp] theorem State.holdStack_qcPolicy (vp n : Nat) : (s.holdStack vp n).qcPolicy = s.qcPolicy := by simp [State.holdStack]
@[simp] theorem State.holdStack_cmd (vp n : Nat) : (s.holdStack vp n).cmd = s.cmd := by simp [State.holdStack]
@[simp] theorem State.holdStack_pending (vp n : Nat) : (s.holdStack vp n).pending = s.pending := by simp [State.holdStack]

/-! ### The changed fields -/

theorem State.updPort_ports (p : Fin 4) (f : Port → Port) : (s.updPort p f).ports = s.ports.set p (f s.ports[p]) := rfl
@[simp] theorem State.updPort_same (p : Fin 4) (f : Port → Port) : (s.updPort p f).ports[p] = f s.ports[p] := by
  simp [State.updPort]
theorem State.updPort_other {p q : Fin 4} (f : Port → Port) (h : p ≠ q) : (s.updPort p f).ports[q] = s.ports[q] := by
  have : (p : Nat) ≠ q := fun e => h (Fin.ext e)
  simp [State.updPort, Vector.getElem_set_ne, this]
@[simp] theorem State.setLane_same (l : Fin 4) (x : Lane) : (s.setLane l x).lanes[l] = x := by simp [State.setLane]
theorem State.setLane_other {l m : Fin 4} (x : Lane) (h : l ≠ m) : (s.setLane l x).lanes[m] = s.lanes[m] := by
  have : (l : Nat) ≠ m := fun e => h (Fin.ext e)
  simp [State.setLane, Vector.getElem_set_ne, this]
@[simp] theorem State.updSlot_same (i : Fin 8) (f : RefSlot → RefSlot) : (s.updSlot i f).slots[i] = f s.slots[i] := by
  simp [State.updSlot]
theorem State.updSlot_other {i j : Fin 8} (f : RefSlot → RefSlot) (h : i ≠ j) : (s.updSlot i f).slots[j] = s.slots[j] := by
  have : (i : Nat) ≠ j := fun e => h (Fin.ext e)
  simp [State.updSlot, Vector.getElem_set_ne, this]
@[simp] theorem State.dequeue_cmd : s.dequeue.cmd = { s.cmd with inputQueue := s.cmd.inputQueue.tail } := rfl
@[simp] theorem State.dropSweep_sweeps (t : Nat) : (s.dropSweep t).sweeps = s.sweeps.filter fun e => e.tag != t := rfl
@[simp] theorem State.dropStack_stackTable (vp : Nat) :
    (s.dropStack vp).stackTable = s.stackTable.filter fun k => k.settings.vp != vp := rfl

/-- Everything a posting can do (R187). -/
theorem State.post_cases (b : NoticeBody) :
    (s.nq.notices.length < Config.noticeLimit ∧
      s.post b = { s with nq := { s.nq with notices := s.nq.notices ++ [{ body := b, stamp := s.stamp }] } }) ∨
    (Config.noticeLimit ≤ s.nq.notices.length ∧ s.post b = { s with nq := { s.nq with overflow := true } }) := by
  unfold State.post
  split
  · exact .inl ⟨‹_›, rfl⟩
  · exact .inr ⟨by omega, rfl⟩

end Sys2Proof.Machine
end

