-- ==== Sys2Proof/Laws/CommandPort.lean ====
section
/-! SUPPORT. Laws of frame assembly on the command line (R167, R168, R170). -/

namespace Sys2Proof.Machine

/-- A deselected part hears no unmarked character (R167). -/
theorem unmarkedRun_deselected (bs : List Byte) : ∀ s : State, s.cmd.initInterval = false → s.cmd.selection = .deselected →
    s.unmarkedRun bs = s := by
  induction bs with
  | nil => intro s _ _; rfl
  | cons b bs ih =>
    intro s h1 h2
    have : s.unmarked b = s := by simp [State.unmarked, h1, h2]
    show State.unmarkedRun (s.unmarked b) bs = s
    rw [this]; exact ih s h1 h2

/-- The length field of a frame. -/
theorem field_length (l : List Byte) (lo hi : Byte) : field (lo :: hi :: l) 0 2 = lo.toNat + 256 * hi.toNat := by
  simp [field, leNat]

/-- The rest of a frame of a consistent length, received by a selected part, ends in the frame's disposition (R168, R170). -/
theorem unmarkedRun_frame (lo hi : Byte) (ak : AddressKind) (s : State) (h1 : s.cmd.initInterval = false)
    (hc : lengthInconsistent (lo.toNat + 256 * hi.toNat) = false)
    (hs : s.cmd.selection = (match ak with | .addressed => .selectedOwn | .broadcast => .selectedAll)) :
    ∀ (rest pre : List Byte), rest ≠ [] → 2 ≤ (pre ++ rest).length → (∃ t, pre ++ rest = lo :: hi :: t) →
      (pre ++ rest).length = lo.toNat + 256 * hi.toNat + 4 →
      State.unmarkedRun { s with cmd := { s.cmd with assembly := pre } } rest = State.dispose s.deselect (pre ++ rest) ak := by
  intro rest
  induction rest with
  | nil => intro pre h; exact absurd rfl h
  | cons b rest ih =>
    intro pre _ h2 h3 h4
    show State.unmarkedRun (State.unmarked { s with cmd := { s.cmd with assembly := pre } } b) rest = _
    have hu : State.unmarked { s with cmd := { s.cmd with assembly := pre } } b =
        State.assemble { s with cmd := { s.cmd with assembly := pre } } (pre ++ [b]) ak := by
      unfold State.unmarked
      simp only [h1, hs]
      cases ak <;> rfl
    rw [hu]
    unfold State.assemble
    cases rest with
    | nil =>
      obtain ⟨t, ht⟩ := h3
      rw [if_neg (by omega)]
      rw [ht] at h4 ⊢
      rw [field_length]
      rw [if_neg (by simp [hc]), if_neg (by omega)]
      have hd : State.deselect { s with cmd := { s.cmd with assembly := pre } } = s.deselect := rfl
      rw [hd]
      apply unmarkedRun_deselected
      · unfold State.dispose; dsimp only; split_ifs <;> simp [State.deselect, State.enqueue, h1]
      · unfold State.dispose; dsimp only; split_ifs <;> simp [State.deselect, State.enqueue]
    | cons c rest =>
      have hlen : (pre ++ [b]).length < lo.toNat + 256 * hi.toNat + 4 := by simp at h4 ⊢; omega
      have hgoal : ∀ x, x = ({ s with cmd := { s.cmd with assembly := pre ++ [b] } } : State) →
          State.unmarkedRun x (c :: rest) = State.dispose s.deselect (pre ++ b :: c :: rest) ak := by
        intro x hx; subst hx
        have := ih (pre ++ [b]) (by simp) (by simpa using h2) (by simpa using h3) (by simpa using h4)
        simpa using this
      apply hgoal
      by_cases hp : (pre ++ [b]).length < 2
      · rw [if_pos hp]
      · rw [if_neg hp]
        have hf : field (pre ++ [b]) 0 2 = lo.toNat + 256 * hi.toNat := by
          obtain ⟨t, ht⟩ := h3
          match pre, ht with
          | [], _ => simp at hp
          | [x], ht => simp at ht; obtain ⟨rfl, rfl, _⟩ := ht; simp [field, leNat]
          | x :: y :: pre, ht => simp at ht; obtain ⟨rfl, rfl, _⟩ := ht; exact field_length _ _ _
        rw [hf, if_neg (by simp [hc]), if_pos hlen]

end Sys2Proof.Machine
end

