-- ==== Sys2Proof/Laws/Tables.lean ====
section
/-! SUPPORT. Laws of the fixed tables: what a write of one or of many entries leaves at each place. -/

namespace Sys2Proof.Machine

variable {α β : Type} {n : Nat}

/-- A table with one entry replaced, read at any place. -/
theorem table_set (v : Vector α n) (i j : Fin n) (a : α) : (v.set i a)[j] = if i = j then a else v[j] := by
  simp only [Fin.getElem_fin, Vector.getElem_set, Fin.ext_iff]

@[simp] theorem table_set_same (v : Vector α n) (i : Fin n) (a : α) : (v.set i a)[i] = a := by
  rw [table_set, if_pos rfl]

theorem table_set_other (v : Vector α n) {i j : Fin n} (a : α) (h : i ≠ j) : (v.set i a)[j] = v[j] := by
  rw [table_set, if_neg h]

/-- A table mapped entry by entry. -/
@[simp] theorem mapTable_get (f : α → β) (v : Vector α n) (i : Fin n) : (mapTable f v)[i] = f v[i] := by
  simp only [mapTable, Fin.getElem_fin, Vector.getElem_mk, List.getElem_toArray, List.getElem_map, Vector.getElem_toList]

/-- The states a CHSTATE writes (R4). -/
theorem writeStates_get (count : Nat) (v : Vector ChannelEntry 480) (first : Nat) (st : ChannelState) (c : Fin 480) :
    (writeStates v first st count)[c] =
      if first ≤ c.val ∧ c.val < first + count then { v[c] with state := st } else v[c] := by
  induction count generalizing v first with
  | zero => rw [if_neg (by omega)]; rfl
  | succ n ih =>
    rw [writeStates, ih]
    by_cases ha : first < 480
    · simp only [ha, dif_pos]
      by_cases hc : first = c.val
      · subst hc
        rw [if_neg (by omega), if_pos (by omega)]
        simp
      · have e : (v.set first { v[first] with state := st })[c] = v[c] := by
          show (v.set first _)[c.val] = _
          rw [Vector.getElem_set_ne _ _ hc]; rfl
        rw [e]
        by_cases h1 : first + 1 ≤ c.val ∧ c.val < first + 1 + n
        · rw [if_pos h1, if_pos (by omega)]
        · rw [if_neg h1, if_neg (by omega)]
    · simp only [ha, dif_neg, not_false_iff]
      have := c.isLt
      rw [if_neg (by omega), if_neg (by omega)]

/-- The descriptions a CHMAP writes (R2). -/
theorem writeDescriptions_get (ds : List ChannelEntry) (v : Vector ChannelEntry 480) (first : Nat) (c : Fin 480) :
    (writeDescriptions v first ds)[c] =
      if first ≤ c.val ∧ c.val < first + ds.length then ds.getD (c.val - first) v[c] else v[c] := by
  induction ds generalizing v first with
  | nil => rw [if_neg (by simp)]; rfl
  | cons d ds ih =>
    rw [writeDescriptions, ih]
    by_cases ha : first < 480
    · simp only [ha, dif_pos, List.length_cons]
      by_cases hc : first = c.val
      · subst hc
        rw [if_neg (by omega), if_pos (by omega)]
        simp
      · have e : (v.set first d)[c] = v[c] := by
          show (v.set first _)[c.val] = _
          rw [Vector.getElem_set_ne _ _ hc]; rfl
        rw [e]
        by_cases h1 : first + 1 ≤ c.val ∧ c.val < first + 1 + ds.length
        · rw [if_pos h1, if_pos (by omega)]
          have : c.val - first = (c.val - (first + 1)) + 1 := by omega
          rw [this]; rfl
        · rw [if_neg h1, if_neg (by omega)]
    · simp only [ha, dif_neg, not_false_iff]
      have := c.isLt
      rw [if_neg (by omega), if_neg (by omega)]

/-- A port byte of 0 to 3 names its port. -/
theorem onPort_eq (p : Fin 4) (s : State) (f : Fin 4 → Reply) : onPort [byteOf p.val] s f = f p := by
  have : field [byteOf p.val] 0 1 = p.val := by
    show (byteOf p.val).toNat + 256 * 0 = _
    simp [byteOf]; omega
  unfold onPort; simp [this]

/-- A slot byte of 0 to 7 names its slot. -/
theorem onSlot_eq (i : Fin 8) (rest : List Byte) (s : State) (f : Fin 8 → Reply) :
    onSlot (byteOf i.val :: rest) s f = f i := by
  have : field (byteOf i.val :: rest) 0 1 = i.val := by
    show (byteOf i.val).toNat + 256 * 0 = _
    simp [byteOf]; omega
  unfold onSlot; simp [this]

end Sys2Proof.Machine
end

