-- ==== Sys2Proof/Laws/Events.lean ====
section
/-! SUPPORT. What the shared operations of the sweep list, the stacks and the output queue leave alone, and everything they can
do. -/

namespace Sys2Proof.Machine

variable (s : State)

/-! ### State.append -/

@[simp] theorem State.append_channels (k : RecordKind) (n : Nat) (f : Nat → List Byte) : (s.append k n f).channels = s.channels := by
  unfold State.append; split <;> simp
@[simp] theorem State.append_interval (k : RecordKind) (n : Nat) (f : Nat → List Byte) : (s.append k n f).interval = s.interval := by
  unfold State.append; split <;> simp
@[simp] theorem State.append_ports (k : RecordKind) (n : Nat) (f : Nat → List Byte) : (s.append k n f).ports = s.ports := by
  unfold State.append; split <;> simp
@[simp] theorem State.append_slots (k : RecordKind) (n : Nat) (f : Nat → List Byte) : (s.append k n f).slots = s.slots := by
  unfold State.append; split <;> simp
@[simp] theorem State.append_sweeps (k : RecordKind) (n : Nat) (f : Nat → List Byte) : (s.append k n f).sweeps = s.sweeps := by
  unfold State.append; split <;> simp
@[simp] theorem State.append_lanes (k : RecordKind) (n : Nat) (f : Nat → List Byte) : (s.append k n f).lanes = s.lanes := by
  unfold State.append; split <;> simp
@[simp] theorem State.append_qcPolicy (k : RecordKind) (n : Nat) (f : Nat → List Byte) : (s.append k n f).qcPolicy = s.qcPolicy := by
  unfold State.append; split <;> simp
@[simp] theorem State.append_stackTable (k : RecordKind) (n : Nat) (f : Nat → List Byte) : (s.append k n f).stackTable = s.stackTable := by
  unfold State.append; split <;> simp
@[simp] theorem State.append_cmd (k : RecordKind) (n : Nat) (f : Nat → List Byte) : (s.append k n f).cmd = s.cmd := by
  unfold State.append; split <;> simp
@[simp] theorem State.append_pending (k : RecordKind) (n : Nat) (f : Nat → List Byte) : (s.append k n f).pending = s.pending := by
  unfold State.append; split <;> simp

/-! ### State.requestSpace -/

@[simp] theorem State.requestSpace_channels (vp n : Nat) : (s.requestSpace vp n).channels = s.channels := by
  unfold State.requestSpace; split <;> simp
@[simp] theorem State.requestSpace_interval (vp n : Nat) : (s.requestSpace vp n).interval = s.interval := by
  unfold State.requestSpace; split <;> simp
@[simp] theorem State.requestSpace_ports (vp n : Nat) : (s.requestSpace vp n).ports = s.ports := by
  unfold State.requestSpace; split <;> simp
@[simp] theorem State.requestSpace_slots (vp n : Nat) : (s.requestSpace vp n).slots = s.slots := by
  unfold State.requestSpace; split <;> simp
@[simp] theorem State.requestSpace_sweeps (vp n : Nat) : (s.requestSpace vp n).sweeps = s.sweeps := by
  unfold State.requestSpace; split <;> simp
@[simp] theorem State.requestSpace_lanes (vp n : Nat) : (s.requestSpace vp n).lanes = s.lanes := by
  unfold State.requestSpace; split <;> simp
@[simp] theorem State.requestSpace_qcPolicy (vp n : Nat) : (s.requestSpace vp n).qcPolicy = s.qcPolicy := by
  unfold State.requestSpace; split <;> simp
@[simp] theorem State.requestSpace_cmd (vp n : Nat) : (s.requestSpace vp n).cmd = s.cmd := by
  unfold State.requestSpace; split <;> simp
@[simp] theorem State.requestSpace_pending (vp n : Nat) : (s.requestSpace vp n).pending = s.pending := by
  unfold State.requestSpace; split <;> simp

/-! ### State.offerSweep -/

@[simp] theorem State.offerSweep_channels (e : SweepEntry) (l : Lane) (d : Disposition) (q : Option QcRecord) : (s.offerSweep e l d q).channels = s.channels := by
  unfold State.offerSweep; split
  · dsimp only; split_ifs <;> simp
  · rfl
@[simp] theorem State.offerSweep_interval (e : SweepEntry) (l : Lane) (d : Disposition) (q : Option QcRecord) : (s.offerSweep e l d q).interval = s.interval := by
  unfold State.offerSweep; split
  · dsimp only; split_ifs <;> simp
  · rfl
@[simp] theorem State.offerSweep_ports (e : SweepEntry) (l : Lane) (d : Disposition) (q : Option QcRecord) : (s.offerSweep e l d q).ports = s.ports := by
  unfold State.offerSweep; split
  · dsimp only; split_ifs <;> simp
  · rfl
@[simp] theorem State.offerSweep_slots (e : SweepEntry) (l : Lane) (d : Disposition) (q : Option QcRecord) : (s.offerSweep e l d q).slots = s.slots := by
  unfold State.offerSweep; split
  · dsimp only; split_ifs <;> simp
  · rfl
@[simp] theorem State.offerSweep_sweeps (e : SweepEntry) (l : Lane) (d : Disposition) (q : Option QcRecord) : (s.offerSweep e l d q).sweeps = s.sweeps := by
  unfold State.offerSweep; split
  · dsimp only; split_ifs <;> simp
  · rfl
@[simp] theorem State.offerSweep_lanes (e : SweepEntry) (l : Lane) (d : Disposition) (q : Option QcRecord) : (s.offerSweep e l d q).lanes = s.lanes := by
  unfold State.offerSweep; split
  · dsimp only; split_ifs <;> simp
  · rfl
@[simp] theorem State.offerSweep_qcPolicy (e : SweepEntry) (l : Lane) (d : Disposition) (q : Option QcRecord) : (s.offerSweep e l d q).qcPolicy = s.qcPolicy := by
  unfold State.offerSweep; split
  · dsimp only; split_ifs <;> simp
  · rfl
@[simp] theorem State.offerSweep_stackTable (e : SweepEntry) (l : Lane) (d : Disposition) (q : Option QcRecord) : (s.offerSweep e l d q).stackTable = s.stackTable := by
  unfold State.offerSweep; split
  · dsimp only; split_ifs <;> simp
  · rfl
@[simp] theorem State.offerSweep_cmd (e : SweepEntry) (l : Lane) (d : Disposition) (q : Option QcRecord) : (s.offerSweep e l d q).cmd = s.cmd := by
  unfold State.offerSweep; split
  · dsimp only; split_ifs <;> simp
  · rfl
@[simp] theorem State.offerSweep_pending (e : SweepEntry) (l : Lane) (d : Disposition) (q : Option QcRecord) : (s.offerSweep e l d q).pending = s.pending := by
  unfold State.offerSweep; split
  · dsimp only; split_ifs <;> simp
  · rfl

/-! ### State.completionTest -/

@[simp] theorem State.completionTest_channels (vp : Nat) : (s.completionTest vp).channels = s.channels := by
  unfold State.completionTest; split
  · rfl
  · split <;> simp
@[simp] theorem State.completionTest_interval (vp : Nat) : (s.completionTest vp).interval = s.interval := by
  unfold State.completionTest; split
  · rfl
  · split <;> simp
@[simp] theorem State.completionTest_ports (vp : Nat) : (s.completionTest vp).ports = s.ports := by
  unfold State.completionTest; split
  · rfl
  · split <;> simp
@[simp] theorem State.completionTest_slots (vp : Nat) : (s.completionTest vp).slots = s.slots := by
  unfold State.completionTest; split
  · rfl
  · split <;> simp
@[simp] theorem State.completionTest_sweeps (vp : Nat) : (s.completionTest vp).sweeps = s.sweeps := by
  unfold State.completionTest; split
  · rfl
  · split <;> simp
@[simp] theorem State.completionTest_lanes (vp : Nat) : (s.completionTest vp).lanes = s.lanes := by
  unfold State.completionTest; split
  · rfl
  · split <;> simp
@[simp] theorem State.completionTest_qcPolicy (vp : Nat) : (s.completionTest vp).qcPolicy = s.qcPolicy := by
  unfold State.completionTest; split
  · rfl
  · split <;> simp
@[simp] theorem State.completionTest_cmd (vp : Nat) : (s.completionTest vp).cmd = s.cmd := by
  unfold State.completionTest; split
  · rfl
  · split <;> simp
@[simp] theorem State.completionTest_pending (vp : Nat) : (s.completionTest vp).pending = s.pending := by
  unfold State.completionTest; split
  · rfl
  · split <;> simp

/-! ### State.resweep -/

@[simp] theorem State.resweep_channels (e : SweepEntry) (c : AbortCause) : (s.resweep e c).channels = s.channels := by
  unfold State.resweep; split
  · rfl
  · split_ifs <;> simp
@[simp] theorem State.resweep_interval (e : SweepEntry) (c : AbortCause) : (s.resweep e c).interval = s.interval := by
  unfold State.resweep; split
  · rfl
  · split_ifs <;> simp
@[simp] theorem State.resweep_ports (e : SweepEntry) (c : AbortCause) : (s.resweep e c).ports = s.ports := by
  unfold State.resweep; split
  · rfl
  · split_ifs <;> simp
@[simp] theorem State.resweep_slots (e : SweepEntry) (c : AbortCause) : (s.resweep e c).slots = s.slots := by
  unfold State.resweep; split
  · rfl
  · split_ifs <;> simp
@[simp] theorem State.resweep_sweeps (e : SweepEntry) (c : AbortCause) : (s.resweep e c).sweeps = s.sweeps := by
  unfold State.resweep; split
  · rfl
  · split_ifs <;> simp
@[simp] theorem State.resweep_lanes (e : SweepEntry) (c : AbortCause) : (s.resweep e c).lanes = s.lanes := by
  unfold State.resweep; split
  · rfl
  · split_ifs <;> simp
@[simp] theorem State.resweep_qcPolicy (e : SweepEntry) (c : AbortCause) : (s.resweep e c).qcPolicy = s.qcPolicy := by
  unfold State.resweep; split
  · rfl
  · split_ifs <;> simp
@[simp] theorem State.resweep_oq (e : SweepEntry) (c : AbortCause) : (s.resweep e c).oq = s.oq := by
  unfold State.resweep; split
  · rfl
  · split_ifs <;> simp
@[simp] theorem State.resweep_cmd (e : SweepEntry) (c : AbortCause) : (s.resweep e c).cmd = s.cmd := by
  unfold State.resweep; split
  · rfl
  · split_ifs <;> simp
@[simp] theorem State.resweep_pending (e : SweepEntry) (c : AbortCause) : (s.resweep e c).pending = s.pending := by
  unfold State.resweep; split
  · rfl
  · split_ifs <;> simp

/-! ### State.route -/

@[simp] theorem State.route_channels (e : SweepEntry) (w : AbortReason) : (s.route e w).channels = s.channels := by
  unfold State.route; split <;> (try split) <;> simp
@[simp] theorem State.route_interval (e : SweepEntry) (w : AbortReason) : (s.route e w).interval = s.interval := by
  unfold State.route; split <;> (try split) <;> simp
@[simp] theorem State.route_ports (e : SweepEntry) (w : AbortReason) : (s.route e w).ports = s.ports := by
  unfold State.route; split <;> (try split) <;> simp
@[simp] theorem State.route_slots (e : SweepEntry) (w : AbortReason) : (s.route e w).slots = s.slots := by
  unfold State.route; split <;> (try split) <;> simp
@[simp] theorem State.route_sweeps (e : SweepEntry) (w : AbortReason) : (s.route e w).sweeps = s.sweeps := by
  unfold State.route; split <;> (try split) <;> simp
@[simp] theorem State.route_lanes (e : SweepEntry) (w : AbortReason) : (s.route e w).lanes = s.lanes := by
  unfold State.route; split <;> (try split) <;> simp
@[simp] theorem State.route_qcPolicy (e : SweepEntry) (w : AbortReason) : (s.route e w).qcPolicy = s.qcPolicy := by
  unfold State.route; split <;> (try split) <;> simp
@[simp] theorem State.route_oq (e : SweepEntry) (w : AbortReason) : (s.route e w).oq = s.oq := by
  unfold State.route; split <;> (try split) <;> simp
@[simp] theorem State.route_cmd (e : SweepEntry) (w : AbortReason) : (s.route e w).cmd = s.cmd := by
  unfold State.route; split <;> (try split) <;> simp
@[simp] theorem State.route_pending (e : SweepEntry) (w : AbortReason) : (s.route e w).pending = s.pending := by
  unfold State.route; split <;> (try split) <;> simp

/-! ### State.offerAborted -/

@[simp] theorem State.offerAborted_channels (e : SweepEntry) (w : AbortReason) : (s.offerAborted e w).channels = s.channels := by
  unfold State.offerAborted; split
  · split <;> simp
  · rfl
@[simp] theorem State.offerAborted_interval (e : SweepEntry) (w : AbortReason) : (s.offerAborted e w).interval = s.interval := by
  unfold State.offerAborted; split
  · split <;> simp
  · rfl
@[simp] theorem State.offerAborted_ports (e : SweepEntry) (w : AbortReason) : (s.offerAborted e w).ports = s.ports := by
  unfold State.offerAborted; split
  · split <;> simp
  · rfl
@[simp] theorem State.offerAborted_slots (e : SweepEntry) (w : AbortReason) : (s.offerAborted e w).slots = s.slots := by
  unfold State.offerAborted; split
  · split <;> simp
  · rfl
@[simp] theorem State.offerAborted_sweeps (e : SweepEntry) (w : AbortReason) : (s.offerAborted e w).sweeps = s.sweeps := by
  unfold State.offerAborted; split
  · split <;> simp
  · rfl
@[simp] theorem State.offerAborted_lanes (e : SweepEntry) (w : AbortReason) : (s.offerAborted e w).lanes = s.lanes := by
  unfold State.offerAborted; split
  · split <;> simp
  · rfl
@[simp] theorem State.offerAborted_qcPolicy (e : SweepEntry) (w : AbortReason) : (s.offerAborted e w).qcPolicy = s.qcPolicy := by
  unfold State.offerAborted; split
  · split <;> simp
  · rfl
@[simp] theorem State.offerAborted_stackTable (e : SweepEntry) (w : AbortReason) : (s.offerAborted e w).stackTable = s.stackTable := by
  unfold State.offerAborted; split
  · split <;> simp
  · rfl
@[simp] theorem State.offerAborted_cmd (e : SweepEntry) (w : AbortReason) : (s.offerAborted e w).cmd = s.cmd := by
  unfold State.offerAborted; split
  · split <;> simp
  · rfl
@[simp] theorem State.offerAborted_pending (e : SweepEntry) (w : AbortReason) : (s.offerAborted e w).pending = s.pending := by
  unfold State.offerAborted; split
  · split <;> simp
  · rfl

/-! ### State.abortSweep -/

@[simp] theorem State.abortSweep_channels (e : SweepEntry) (w : AbortReason) : (s.abortSweep e w).channels = s.channels := by
  unfold State.abortSweep; dsimp only; split_ifs <;> simp
@[simp] theorem State.abortSweep_interval (e : SweepEntry) (w : AbortReason) : (s.abortSweep e w).interval = s.interval := by
  unfold State.abortSweep; dsimp only; split_ifs <;> simp
@[simp] theorem State.abortSweep_ports (e : SweepEntry) (w : AbortReason) : (s.abortSweep e w).ports = s.ports := by
  unfold State.abortSweep; dsimp only; split_ifs <;> simp
@[simp] theorem State.abortSweep_qcPolicy (e : SweepEntry) (w : AbortReason) : (s.abortSweep e w).qcPolicy = s.qcPolicy := by
  unfold State.abortSweep; dsimp only; split_ifs <;> simp
@[simp] theorem State.abortSweep_cmd (e : SweepEntry) (w : AbortReason) : (s.abortSweep e w).cmd = s.cmd := by
  unfold State.abortSweep; dsimp only; split_ifs <;> simp
@[simp] theorem State.abortSweep_pending (e : SweepEntry) (w : AbortReason) : (s.abortSweep e w).pending = s.pending := by
  unfold State.abortSweep; dsimp only; split_ifs <;> simp

/-! ### State.mergeSweep -/

@[simp] theorem State.mergeSweep_channels (e : SweepEntry) (l : Lane) (d : Disposition) : (s.mergeSweep e l d).channels = s.channels := by
  simp [State.mergeSweep]
@[simp] theorem State.mergeSweep_interval (e : SweepEntry) (l : Lane) (d : Disposition) : (s.mergeSweep e l d).interval = s.interval := by
  simp [State.mergeSweep]
@[simp] theorem State.mergeSweep_ports (e : SweepEntry) (l : Lane) (d : Disposition) : (s.mergeSweep e l d).ports = s.ports := by
  simp [State.mergeSweep]
@[simp] theorem State.mergeSweep_qcPolicy (e : SweepEntry) (l : Lane) (d : Disposition) : (s.mergeSweep e l d).qcPolicy = s.qcPolicy := by
  simp [State.mergeSweep]
@[simp] theorem State.mergeSweep_cmd (e : SweepEntry) (l : Lane) (d : Disposition) : (s.mergeSweep e l d).cmd = s.cmd := by
  simp [State.mergeSweep]
@[simp] theorem State.mergeSweep_pending (e : SweepEntry) (l : Lane) (d : Disposition) : (s.mergeSweep e l d).pending = s.pending := by
  simp [State.mergeSweep]

/-! ### An entry leaves the list -/

/-- Parts 2 and 3 of an abort, as one update (R74). -/
theorem State.leave_abort (e : SweepEntry) :
    ((s.freeLane e.lane).dropSweep e.tag).unuseSlot e.reference = s.withoutSweep e := by
  unfold State.withoutSweep
  cases e.lane <;> cases e.reference <;> rfl

/-- Part 3 of a merge, as one update (R72). -/
theorem State.leave_merge (e : SweepEntry) :
    ((s.dropSweep e.tag).unuseSlot e.reference).freeLane e.lane = s.withoutSweep e := by
  unfold State.withoutSweep
  cases e.lane <;> cases e.reference <;> rfl

@[simp] theorem State.offerAborted_frame_sweeps (e : SweepEntry) (w : AbortReason) :
    ((s.offerAborted e w).withoutSweep e).sweeps = s.sweeps.filter fun x => x.tag != e.tag := by
  simp [State.withoutSweep]

/-- An abort removes the entries with the tag, and no other (R74). -/
@[simp] theorem State.abortSweep_sweeps (e : SweepEntry) (w : AbortReason) :
    (s.abortSweep e w).sweeps = s.sweeps.filter fun x => x.tag != e.tag := by
  unfold State.abortSweep
  rw [State.leave_abort]
  dsimp only
  split_ifs <;> simp [State.withoutSweep]

@[simp] theorem State.abortSweep_slots (e : SweepEntry) (w : AbortReason) :
    (s.abortSweep e w).slots = releasedSlots s.slots e.reference := by
  unfold State.abortSweep
  rw [State.leave_abort]
  dsimp only
  split_ifs <;> simp [State.withoutSweep]

@[simp] theorem State.abortSweep_lanes (e : SweepEntry) (w : AbortReason) :
    (s.abortSweep e w).lanes = freedLanes s.lanes e.lane := by
  unfold State.abortSweep
  rw [State.leave_abort]
  dsimp only
  split_ifs <;> simp [State.withoutSweep]

/-- A merge removes the entries with the tag, and no other (R72). -/
@[simp] theorem State.mergeSweep_sweeps (e : SweepEntry) (l : Lane) (d : Disposition) :
    (s.mergeSweep e l d).sweeps = s.sweeps.filter fun x => x.tag != e.tag := by
  unfold State.mergeSweep
  rw [State.leave_merge]
  simp [State.withoutSweep]

@[simp] theorem State.mergeSweep_slots (e : SweepEntry) (l : Lane) (d : Disposition) :
    (s.mergeSweep e l d).slots = releasedSlots s.slots e.reference := by
  unfold State.mergeSweep
  rw [State.leave_merge]
  simp [State.withoutSweep]

@[simp] theorem State.mergeSweep_lanes (e : SweepEntry) (l : Lane) (d : Disposition) :
    (s.mergeSweep e l d).lanes = freedLanes s.lanes e.lane := by
  unfold State.mergeSweep
  rw [State.leave_merge]
  simp [State.withoutSweep]

/-! ### The command port takes no part: an operation commutes with a change of it -/

theorem State.findStack_setCmd (c : CommandPort) (vp : Nat) :
    State.findStack { s with cmd := c } vp = s.findStack vp := rfl

theorem State.post_setCmd (c : CommandPort) (b : NoticeBody) :
    State.post { s with cmd := c } b = { s.post b with cmd := c } := by
  unfold State.post; dsimp only; split <;> rfl

theorem State.requestSpace_setCmd (c : CommandPort) (vp n : Nat) :
    State.requestSpace { s with cmd := c } vp n = { s.requestSpace vp n with cmd := c } := by
  unfold State.requestSpace
  dsimp only
  split
  · rfl
  · exact State.post_setCmd (State.updStack { s with oq := { s.oq with heldOrder := s.oq.heldOrder ++ [vp] } } vp
      fun k => { k with state := .held }) c _

theorem State.complete_setCmd (c : CommandPort) (k : Stack) :
    State.complete { s with cmd := c } k = s.complete k := rfl

theorem State.completionTest_setCmd (c : CommandPort) (vp : Nat) :
    State.completionTest { s with cmd := c } vp = { s.completionTest vp with cmd := c } := by
  unfold State.completionTest
  rw [State.findStack_setCmd]
  cases s.findStack vp with
  | none => rfl
  | some k =>
    dsimp only
    rw [State.complete_setCmd]
    split
    · exact State.requestSpace_setCmd
        (s.updStack vp fun k => { k with notShot := some k.notShotCount, channelList := s.listedChannels }) c vp
        (stackRecordSize s.listedChannels.length k.settings.listen)
    · rfl

theorem State.append_setCmd (c : CommandPort) (k : RecordKind) (n : Nat) (f : Nat → List Byte) :
    State.append { s with cmd := c } k n f = { s.append k n f with cmd := c } := by
  unfold State.append
  dsimp only
  split
  · exact State.post_setCmd
      { s with
        oq := { s.oq with
          records := [{ kind := k, number := s.oq.nextNumber, size := n, content := f s.oq.nextNumber }]
          nextNumber := nextRecordNumber s.oq.nextNumber, readPosition := 0 } } c _
  · rfl

theorem State.offerSweep_setCmd (c : CommandPort) (e : SweepEntry) (l : Lane) (d : Disposition) (q : Option QcRecord) :
    State.offerSweep { s with cmd := c } e l d q = { s.offerSweep e l d q with cmd := c } := by
  unfold State.offerSweep
  rw [State.findStack_setCmd]
  cases s.findStack e.vp with
  | none => rfl
  | some k =>
    dsimp only
    split_ifs
    · exact State.append_setCmd s c _ _ _
    · exact State.post_setCmd s c _
    · exact State.post_setCmd s c _
    · rfl

theorem State.resweep_setCmd (c : CommandPort) (e : SweepEntry) (a : AbortCause) :
    State.resweep { s with cmd := c } e a = { s.resweep e a with cmd := c } := by
  unfold State.resweep
  rw [State.findStack_setCmd]
  cases s.findStack e.vp with
  | none => rfl
  | some k =>
    dsimp only
    split_ifs
    · exact State.post_setCmd
        (s.updStack e.vp fun k => { k.setMap e.number (.retry e.tag) with retriesUsed := k.retriesUsed + 1 }) c _
    · rfl
    · rfl

theorem State.route_setCmd (c : CommandPort) (e : SweepEntry) (w : AbortReason) :
    State.route { s with cmd := c } e w = { s.route e w with cmd := c } := by
  unfold State.route
  cases w with
  | rejected r => dsimp only; split_ifs; exacts [State.resweep_setCmd s c e _, rfl]
  | qcTimeout b => cases b; exacts [rfl, State.resweep_setCmd s c e _]
  | _ => rfl

theorem State.offerAborted_setCmd (c : CommandPort) (e : SweepEntry) (w : AbortReason) :
    State.offerAborted { s with cmd := c } e w = { s.offerAborted e w with cmd := c } := by
  unfold State.offerAborted
  cases w.record with
  | none => rfl
  | some p =>
    cases e.lane with
    | none => rfl
    | some l =>
      dsimp only
      split
      · exact State.offerSweep_setCmd s c e _ _ _
      · rfl

/-- An abort reads and changes nothing of the command port. -/
theorem State.abortSweep_setCmd (c : CommandPort) (e : SweepEntry) (w : AbortReason) :
    State.abortSweep { s with cmd := c } e w = { s.abortSweep e w with cmd := c } := by
  unfold State.abortSweep
  rw [State.offerAborted_setCmd, State.leave_abort, State.leave_abort]
  have h : ∀ x : State, State.withoutSweep { x with cmd := c } e = { x.withoutSweep e with cmd := c } := fun _ => rfl
  dsimp only
  rw [h, State.post_setCmd]
  split
  · rfl
  · rw [State.route_setCmd, State.completionTest_setCmd]

/-- A merge reads and changes nothing of the command port. -/
theorem State.mergeSweep_setCmd (c : CommandPort) (e : SweepEntry) (l : Lane) (d : Disposition) :
    State.mergeSweep { s with cmd := c } e l d = { s.mergeSweep e l d with cmd := c } := by
  unfold State.mergeSweep
  have h : ∀ x : State, State.withoutSweep { x with cmd := c } e = { x.withoutSweep e with cmd := c } := fun _ => rfl
  have h2 : State.updStack { s with cmd := c } e.vp (fun k => k.mergeSweep e l.result) =
    { s.updStack e.vp (fun k => k.mergeSweep e l.result) with cmd := c } := rfl
  rw [State.leave_merge, State.leave_merge, h2, State.offerSweep_setCmd, h, State.post_setCmd, State.completionTest_setCmd]

/-! ### Serving the held order -/

theorem OutputQueue.free_setHeld (q : OutputQueue) (order : List Nat) :
    OutputQueue.free { q with heldOrder := order } = q.free := rfl

theorem State.findStack_setHeld (order : List Nat) (vp : Nat) :
    State.findStack { s with oq := { s.oq with heldOrder := order } } vp = s.findStack vp := rfl

/-- Serving rewrites the held order itself, so it does not read it (R150). -/
theorem State.serveHeld_setHeld (held order : List Nat) :
    State.serveHeld held { s with oq := { s.oq with heldOrder := order } } = State.serveHeld held s := by
  induction held generalizing s order with
  | nil => rfl
  | cons vp rest ih =>
    unfold State.serveHeld
    rw [State.findStack_setHeld]
    cases s.findStack vp with
    | none => rfl
    | some k =>
      dsimp only
      rw [OutputQueue.free_setHeld]
      split
      · exact ih (s := s.grantSpace vp k.recordSize) (order := order)
      · rfl

theorem State.serveHeld_setCmd (held : List Nat) (c : CommandPort) :
    State.serveHeld held { s with cmd := c } = { State.serveHeld held s with cmd := c } := by
  induction held generalizing s with
  | nil => rfl
  | cons vp rest ih =>
    unfold State.serveHeld
    rw [State.findStack_setCmd]
    cases s.findStack vp with
    | none => rfl
    | some k =>
      dsimp only
      split
      · exact ih (s := s.grantSpace vp k.recordSize)
      · rfl

theorem State.serve_setCmd (c : CommandPort) : State.serve { s with cmd := c } = { s.serve with cmd := c } :=
  State.serveHeld_setCmd s s.oq.heldOrder c

/-- Serving leaves everything but the stack table and the output queue, and of the queue the records, the read position, the
counter and the block sizes. -/
theorem State.serve_frame :
    s.serve.channels = s.channels ∧ s.serve.interval = s.interval ∧ s.serve.ports = s.ports ∧ s.serve.slots = s.slots ∧
    s.serve.sweeps = s.sweeps ∧ s.serve.lanes = s.lanes ∧ s.serve.qcPolicy = s.qcPolicy ∧ s.serve.nq = s.nq ∧
    s.serve.cmd = s.cmd ∧ s.serve.pending = s.pending ∧ s.serve.oq.records = s.oq.records ∧
    s.serve.oq.readPosition = s.oq.readPosition ∧ s.serve.oq.nextNumber = s.oq.nextNumber ∧
    s.serve.oq.effectiveBlock = s.oq.effectiveBlock ∧ s.serve.oq.pendingBlock = s.oq.pendingBlock := by
  have h : ∀ (held : List Nat) (s : State), let t := State.serveHeld held s
      t.channels = s.channels ∧ t.interval = s.interval ∧ t.ports = s.ports ∧ t.slots = s.slots ∧
      t.sweeps = s.sweeps ∧ t.lanes = s.lanes ∧ t.qcPolicy = s.qcPolicy ∧ t.nq = s.nq ∧
      t.cmd = s.cmd ∧ t.pending = s.pending ∧ t.oq.records = s.oq.records ∧
      t.oq.readPosition = s.oq.readPosition ∧ t.oq.nextNumber = s.oq.nextNumber ∧
      t.oq.effectiveBlock = s.oq.effectiveBlock ∧ t.oq.pendingBlock = s.oq.pendingBlock := by
    intro held
    induction held with
    | nil => intro s; refine ⟨rfl, rfl, rfl, rfl, rfl, rfl, rfl, rfl, rfl, rfl, rfl, rfl, rfl, rfl, rfl⟩
    | cons vp rest ih =>
      intro s
      unfold State.serveHeld
      cases s.findStack vp with
      | none => refine ⟨rfl, rfl, rfl, rfl, rfl, rfl, rfl, rfl, rfl, rfl, rfl, rfl, rfl, rfl, rfl⟩
      | some k =>
        dsimp only
        split
        · exact ih (s.grantSpace vp k.recordSize)
        · refine ⟨rfl, rfl, rfl, rfl, rfl, rfl, rfl, rfl, rfl, rfl, rfl, rfl, rfl, rfl, rfl⟩
  exact h s.oq.heldOrder s

/-! ### The hand-off of a port's event -/

/-- No frame written and no change of activation state: nothing is handed off (R41). -/
theorem State.handOff_same (before : State) (p : Fin 4) (h : s.ports[p].state = before.ports[p].state) :
    s.handOff before p none = s := by
  simp only [State.handOff, h, Option.isSome_none, bne_self_eq_false, Bool.or_self, Bool.false_eq_true, if_false]

/-- A change of activation state: the readiness test (R64). -/
theorem State.handOff_moved (before : State) (p : Fin 4) (h : s.ports[p].state ≠ before.ports[p].state) :
    s.handOff before p none = s.readinessAll := by
  simp only [State.handOff, Option.isSome_none, Bool.false_or]
  rw [if_pos (by simpa using h)]

/-- A write: the readiness test, then the overrun test (R64, R66). -/
theorem State.handOff_written (before : State) (p : Fin 4) (i : Nat) :
    s.handOff before p (some i) = s.readinessAll.overrunTest i := by
  simp [State.handOff]

end Sys2Proof.Machine
end

