-- ==== Sys2Proof/Laws/PerInstr.lean ====
section
/-! SUPPORT. A family of statements made command by command: a well-formed command carries a payload that fits a request frame. -/

namespace Sys2Proof.Laws.Fits

/-- A well-formed command's payload has at most 1,024 bytes (R168, section 11.2). -/
def Statement (i : Instr) : Prop := i.wellFormed = true → i.payload.length ≤ 1024

theorem of_payloadFits {p : List Byte} (h : payloadFits p = true) : p.length ≤ 1024 := by simpa [payloadFits] using h

theorem chmap (ak : AddressKind) (payload : List Byte) : Statement (.chmap ak payload) := fun h => of_payloadFits h
theorem chstate (ak : AddressKind) (payload : List Byte) : Statement (.chstate ak payload) := fun h => of_payloadFits h
theorem probe (payload : List Byte) : Statement (.probe payload) := fun h => of_payloadFits h
theorem acqset (ak : AddressKind) (payload : List Byte) : Statement (.acqset ak payload) := fun h => of_payloadFits h
theorem lnact (ak : AddressKind) (payload : List Byte) : Statement (.lnact ak payload) := fun h => of_payloadFits h
theorem lndeact (ak : AddressKind) (payload : List Byte) : Statement (.lndeact ak payload) := fun h => of_payloadFits h
theorem lnconf (ak : AddressKind) (payload : List Byte) : Statement (.lnconf ak payload) := fun h => of_payloadFits h
theorem lnreset (ak : AddressKind) (payload : List Byte) : Statement (.lnreset ak payload) := fun h => of_payloadFits h
theorem lnpolicy (ak : AddressKind) (payload : List Byte) : Statement (.lnpolicy ak payload) := fun h => of_payloadFits h
theorem refopen (ak : AddressKind) (payload : List Byte) : Statement (.refopen ak payload) := fun h => of_payloadFits h
theorem refdata (ak : AddressKind) (payload : List Byte) : Statement (.refdata ak payload) := fun h => of_payloadFits h
theorem refclose (ak : AddressKind) (payload : List Byte) : Statement (.refclose ak payload) := fun h => of_payloadFits h
theorem refclear (ak : AddressKind) (payload : List Byte) : Statement (.refclear ak payload) := fun h => of_payloadFits h
theorem swann (ak : AddressKind) (payload : List Byte) : Statement (.swann ak payload) := fun h => of_payloadFits h
theorem swcancel (ak : AddressKind) (payload : List Byte) : Statement (.swcancel ak payload) := fun h => of_payloadFits h
theorem swlist (payload : List Byte) : Statement (.swlist payload) := fun h => of_payloadFits h
theorem qcpolicy (ak : AddressKind) (payload : List Byte) : Statement (.qcpolicy ak payload) := fun h => of_payloadFits h
theorem swqc (ak : AddressKind) (payload : List Byte) : Statement (.swqc ak payload) := fun h => of_payloadFits h
theorem stkopen (ak : AddressKind) (payload : List Byte) : Statement (.stkopen ak payload) := fun h => of_payloadFits h
theorem stkclose (ak : AddressKind) (payload : List Byte) : Statement (.stkclose ak payload) := fun h => of_payloadFits h
theorem stkdrop (ak : AddressKind) (payload : List Byte) : Statement (.stkdrop ak payload) := fun h => of_payloadFits h
theorem stkinfo (payload : List Byte) : Statement (.stkinfo payload) := fun h => of_payloadFits h
theorem oqfetch (payload : List Byte) : Statement (.oqfetch payload) := fun h => of_payloadFits h
theorem oqrel (payload : List Byte) : Statement (.oqrel payload) := fun h => of_payloadFits h
theorem oqsize (ak : AddressKind) (payload : List Byte) : Statement (.oqsize ak payload) := fun h => of_payloadFits h
theorem status (payload : List Byte) : Statement (.status payload) := fun h => of_payloadFits h
theorem ident (payload : List Byte) : Statement (.ident payload) := fun h => of_payloadFits h
theorem rstfull (ak : AddressKind) (payload : List Byte) : Statement (.rstfull ak payload) := fun h => of_payloadFits h
theorem rsteng (ak : AddressKind) (payload : List Byte) : Statement (.rsteng ak payload) := fun h => of_payloadFits h
theorem ntread (payload : List Byte) : Statement (.ntread payload) := fun h => of_payloadFits h
theorem ntmask (ak : AddressKind) (payload : List Byte) : Statement (.ntmask ak payload) := fun h => of_payloadFits h
theorem unknownRequest (ak : AddressKind) (kind : Byte) (payload : List Byte) : Statement (.unknownRequest ak kind payload) := fun h => of_payloadFits (by
    simp only [Instr.wellFormed, Bool.and_eq_true] at h
    exact h.2)
theorem addressCharacter (value : Byte) : Statement (.addressCharacter value) := fun _ => Nat.zero_le _
theorem characterError : Statement (.characterError) := fun _ => Nat.zero_le _
theorem inconsistentLength (lo hi : Byte) : Statement (.inconsistentLength lo hi) := fun _ => Nat.zero_le _
theorem requestFrame (chars : List Byte) : Statement (.requestFrame chars) := fun _ => Nat.zero_le _
theorem answerCompletion : Statement (.answerCompletion) := fun _ => Nat.zero_le _
theorem powerOnReset (straps : BitVec 6) : Statement (.powerOnReset straps) := fun _ => Nat.zero_le _
theorem initIntervalEnd : Statement (.initIntervalEnd) := fun _ => Nat.zero_le _
theorem lineFrame (port : Fin 4) (bytes : List Byte) : Statement (.lineFrame port bytes) := fun _ => Nat.zero_le _
theorem frameAbsence (port : Fin 4) : Statement (.frameAbsence port) := fun _ => Nat.zero_le _
theorem wakeTimerExpiry (port : Fin 4) : Statement (.wakeTimerExpiry port) := fun _ => Nat.zero_le _
theorem slipTimerExpiry (port : Fin 4) : Statement (.slipTimerExpiry port) := fun _ => Nat.zero_le _
theorem retryTimerExpiry (port : Fin 4) : Statement (.retryTimerExpiry port) := fun _ => Nat.zero_le _
theorem drainSilenceTimerExpiry (port : Fin 4) : Statement (.drainSilenceTimerExpiry port) := fun _ => Nat.zero_le _
theorem drainLimitTimerExpiry (port : Fin 4) : Statement (.drainLimitTimerExpiry port) := fun _ => Nat.zero_le _
theorem grant : Statement (.grant) := fun _ => Nat.zero_le _
theorem laneCompletion (lane : Fin 4) : Statement (.laneCompletion lane) := fun _ => Nat.zero_le _
theorem qcWaitExpiry (tag : Nat) : Statement (.qcWaitExpiry tag) := fun _ => Nat.zero_le _
theorem finalizeCompletion (vp : Nat) : Statement (.finalizeCompletion vp) := fun _ => Nat.zero_le _

end Sys2Proof.Laws.Fits
end

