-- ==== Sys2Proof/Laws/Taking.lean ====
section
/-! SUPPORT. What the taking of a request can do (R172 to R175), said once. -/

namespace Sys2Proof.Machine

variable {s : State} {r : Request} {owner : State → Reply}

theorem State.canTake_iff : s.canTake r = true ↔ s.Taking r := by
  constructor
  · intro h
    simp only [State.canTake, Bool.and_eq_true, Bool.not_eq_true', beq_iff_eq] at h
    exact ⟨h.1.1, h.1.2, h.2⟩
  · rintro ⟨h1, h2, h3⟩
    simp [State.canTake, h1, h2, h3]

/-- A request that cannot be taken is not taken. -/
theorem State.take_not (h : ¬ s.Taking r) : s.take r owner = s := by
  unfold State.take
  rw [if_neg (by rwa [State.canTake_iff])]

/-- A request of a fitting length is handed to its owner. -/
theorem State.take_fits (h : s.Taking r) (hp : payloadSuits r.kind r.payload = true) :
    s.take r owner = State.conclude r (owner s.dequeue) := by
  unfold State.take
  rw [if_pos (State.canTake_iff.mpr h), if_pos hp]

/-- A request of another length is refused BADLEN. -/
theorem State.take_badLen (h : s.Taking r) (hp : payloadSuits r.kind r.payload = false) :
    s.take r owner = State.conclude r (refuse s.dequeue .badLen) := by
  unfold State.take
  rw [if_pos (State.canTake_iff.mpr h), if_neg (by simp [hp])]

/-- Everything a taking can do: nothing, a BADLEN refusal, or its owner's reply concluded. -/
theorem State.take_cases (r : Request) (owner : State → Reply) (s : State) :
    (¬ s.Taking r ∧ s.take r owner = s) ∨
    (s.Taking r ∧ payloadSuits r.kind r.payload = false ∧ s.take r owner = State.conclude r (refuse s.dequeue .badLen)) ∨
    (s.Taking r ∧ payloadSuits r.kind r.payload = true ∧ s.take r owner = State.conclude r (owner s.dequeue)) := by
  by_cases h : s.Taking r
  · cases hp : payloadSuits r.kind r.payload
    · exact .inr (.inl ⟨h, rfl, State.take_badLen h hp⟩)
    · exact .inr (.inr ⟨h, rfl, State.take_fits h hp⟩)
  · exact .inl ⟨h, State.take_not h⟩

/-- Everything the end of a taking can do: the answer enters SENDING, the state stands, or one notice is posted. -/
theorem State.conclude_cases (r : Request) (rep : Reply) :
    (r.ak = .addressed ∧ State.conclude r rep = rep.state.send r.kind rep) ∨
    (r.ak = .broadcast ∧ rep.result = .ok ∧ State.conclude r rep = rep.state) ∨
    (r.ak = .broadcast ∧ rep.result ≠ .ok ∧
      State.conclude r rep = rep.state.post (rep.notice.getD (.cmdBadCast r.kind (some rep.result)))) := by
  unfold State.conclude
  cases r.ak with
  | addressed => exact .inl ⟨rfl, rfl⟩
  | broadcast =>
    by_cases h : rep.result = .ok
    · exact .inr (.inl ⟨rfl, h, by simp [h]⟩)
    · exact .inr (.inr ⟨rfl, h, by simp [h]⟩)

/-- A taking that is answered OK, addressed or broadcast: the owner's effect on everything but the command port, which is as
CommandPort.taken says. -/
theorem State.conclude_ok {rep : Reply} {x : State} {c : CommandPort} (hok : rep.result = .ok) (hr : rep.thenReset = false)
    (hs : rep.state = { x with cmd := { c with inputQueue := c.inputQueue.tail } }) :
    State.conclude r rep = { x with cmd := c.taken r .ok rep.payload } := by
  unfold State.conclude CommandPort.taken
  cases r.ak <;> simp [hs, hok, hr, State.send]

/-- A reply of OK that left the command port as the dequeuing did: its state with the command port as CommandPort.taken says. -/
theorem State.conclude_taken {rep : Reply} {t : State} (hok : rep.result = .ok) (hr : rep.thenReset = false)
    (hc : rep.state.cmd = s.dequeue.cmd) (ht : t = { rep.state with cmd := s.cmd.taken r .ok rep.payload }) :
    State.conclude r rep = t := by
  subst ht
  unfold State.conclude CommandPort.taken
  obtain ⟨k, p, ak⟩ := r
  cases ak
  · simp [State.send, hr, hok, hc]
  · simp only [hok, if_true]
    rw [← State.dequeue_cmd, ← hc]

/-- A refusal that left the dequeued state alone and has no notice of its own. -/
theorem State.conclude_refused {rep : Reply} (hs : rep.state = s.dequeue) (hn : rep.notice = none)
    (hr : rep.thenReset = false) (hk : rep.result ≠ .ok) : State.conclude r rep = s.refusing r rep.result rep.payload := by
  unfold State.conclude State.refusing CommandPort.taken
  obtain ⟨k, p, ak⟩ := r
  cases ak
  · simp [State.send, hs, hr, State.dequeue]
  · simp [hk, hn, hs, State.dequeue]

/-- A request whose owner only refuses it, without a notice of its own: the whole taking is that refusal. -/
theorem State.take_refused {res : Result} {pay : List Byte} (h : s.Taking r) (hp : payloadSuits r.kind r.payload = true)
    (hk : res ≠ .ok) (ho : owner s.dequeue = { state := s.dequeue, result := res, payload := pay }) :
    s.take r owner = s.refusing r res pay := by
  rw [State.take_fits h hp, ho, State.conclude_refused (s := s) rfl rfl rfl hk]

end Sys2Proof.Machine
end

