-- ==== Sys2Proof/Laws/Requests.lean ====
section
/-! SUPPORT. Laws of the requests that carry many fields, what is read from them and when nothing is: CHMAP, LNPOLICY, QCPOLICY, SWANN, STKOPEN (R3, R39, R59, R60, R102, R122, R123). -/

namespace Sys2Proof.Machine

/-- A refusal that has a notice of its own for a broadcast request (R60, R123). -/
theorem refuse_post {s : State} {r : Request} {res : Result} {b : NoticeBody} (h : res ≠ .ok) :
    State.conclude r { state := s.dequeue, result := res, notice := some b } =
      (match r.ak with
        | .addressed => s.refusing r res []
        | .broadcast => State.post { s with cmd := s.cmd.taken r res [] } b) := by
  unfold State.conclude State.refusing CommandPort.taken
  obtain ⟨k, p, ak⟩ := r
  cases ak
  · simp [State.send, State.dequeue]
  · simp [h, State.dequeue]

/-- Condition 1 of R59, field by field. -/
theorem readAnnouncement_eq_none (p : List Byte) : readAnnouncement p = none ↔
    (field p 0 2 = 0 ∨ field p 2 4 = 0 ∨ field p 6 1 = 0 ∨ 32 < field p 6 1 ∨ 281474976710656 ≤ field p 7 8 ∨
      field p 15 2 < 256 ∨ 16384 < field p 15 2 ∨ 1 < field p 17 1 ∨ (field p 17 1 = 0 ∧ 7 < field p 18 2) ∨
      (field p 17 1 = 1 ∧ 479 < field p 18 2) ∨ (field p 17 1 = 1 ∧ 8 < field p 20 1)) := by
  unfold readAnnouncement readReference
  generalize field p 17 1 = k
  generalize field p 18 2 = tg
  generalize field p 20 1 = sh
  generalize field p 0 2 = a
  generalize field p 2 4 = b
  generalize field p 6 1 = c
  generalize field p 7 8 = d
  generalize field p 15 2 = e
  rcases Nat.lt_trichotomy k 1 with hk | hk | hk
  · have : k = 0 := by omega
    subst this
    by_cases ht : tg < 8
    · simp only [ht, dif_pos, if_true, Config.indexLimit]
      split_ifs <;> simp <;> omega
    · simp only [ht, dif_neg, if_true, not_false_iff]
      simp; omega
  · subst hk
    by_cases ht : tg < 480
    · by_cases hs : sh ≤ 8
      · simp only [ht, hs, dif_pos, if_true, Config.indexLimit, one_ne_zero, if_false]
        split_ifs <;> simp <;> omega
      · simp only [ht, hs, dif_pos, if_true, one_ne_zero, if_false]
        simp; omega
    · simp only [ht, dif_neg, if_true, not_false_iff, one_ne_zero, if_false]
      simp; omega
  · simp only [show ¬ k = 0 by omega, show ¬ k = 1 by omega, if_false]
    simp; omega

/-- What an announcement carries. -/
theorem readAnnouncement_eq_some (p : List Byte) (a : Announcement) (h : readAnnouncement p = some a) :
    a.tag = field p 0 2 ∧ a.vp = field p 2 4 ∧ a.number = field p 6 1 ∧ a.start = field p 7 8 ∧ a.length = field p 15 2 ∧
    ((field p 17 1 = 0 ∧ ∃ h : field p 18 2 < 8, a.reference = .slot ⟨_, h⟩) ∨
      (field p 17 1 = 1 ∧ ∃ h : field p 18 2 < 480, a.reference = .pilot ⟨_, h⟩ (field p 20 1))) := by
  unfold readAnnouncement readReference at h
  split at h
  · rename_i r hr
    split at h
    · simp only [Option.some.injEq] at h
      subst h
      refine ⟨rfl, rfl, rfl, rfl, rfl, ?_⟩
      split at hr
      · split at hr
        · left; simp at hr; exact ⟨by assumption, by assumption, hr.symm⟩
        · simp at hr
      · split at hr
        · split at hr
          · split at hr
            · right; simp at hr; exact ⟨by assumption, by assumption, hr.symm⟩
            · simp at hr
          · simp at hr
        · simp at hr
    · simp at h
  · simp at h

/-- The refusal table of R59 in terms of the checks a SWANN meets. -/
theorem swannRefusal_eq (s : State) (p : List Byte) : swannRefusal s p =
  match readAnnouncement p with
  | none => some .range
  | some a => match announceCheck s a with | .error r => some r | .ok _ => none := by
  cases h : readAnnouncement p with
  | none =>
    have := (readAnnouncement_eq_none p).mp h
    unfold swannRefusal
    simp only []
    rw [if_pos this]
  | some a =>
    have hn := mt (readAnnouncement_eq_none p).mpr (by rw [h]; simp)
    obtain ⟨h1, h2, h3, h4, h5, h6⟩ := readAnnouncement_eq_some p a h
    unfold swannRefusal
    simp only []
    rw [if_neg hn]
    unfold announceCheck
    simp only [Config.sweepLimit]
    by_cases hf : 32 ≤ s.sweeps.length
    · simp [hf]
    simp only [hf, if_false]
    have hfs : (s.findSweep a.tag).isSome = true ↔ ∃ e ∈ s.sweeps, e.tag = field p 0 2 := by
      unfold State.findSweep; rw [List.find?_isSome, ← h1]; simp
    by_cases hd : ∃ e ∈ s.sweeps, e.tag = field p 0 2
    · rw [if_pos hd, if_pos (hfs.mpr hd)]
    rw [if_neg hd, if_neg (mt hfs.mp hd)]
    have hfk : s.findStack a.vp = s.stackTable.find? fun k => decide (k.settings.vp = field p 2 4) := by
      unfold State.findStack; rw [h2]; congr 1
    rw [hfk]
    cases s.stackTable.find? fun k => decide (k.settings.vp = field p 2 4) with
    | none => rfl
    | some k =>
      simp only []
      unfold stackRefusal
      by_cases hst : k.state ≠ .opened
      · simp only [hst, if_true, ne_eq, not_false_iff]
      simp only [hst, if_false]
      unfold windowEnd
      rw [h3, h4, h5]
      simp only [Config.indexLimit]
      by_cases hr : k.settings.expected < field p 6 1 ∨ 281474976710656 ≤ field p 7 8 + field p 15 2 + k.settings.listen - 2
      · simp only [hr, if_true]
      simp only [hr, if_false]
      have hmain : (if field p 17 1 = 0 ∧ (s.slots[field p 18 2]?).map (·.state) ≠ some .ready then some .noRef
      else if field p 17 1 = 0 ∧ (s.slots[field p 18 2]?).map (·.declared) ≠ some (some (field p 15 2)) then some .mismatch
      else if field p 17 1 = 1 ∧ (s.channels[field p 18 2]?).map (·.state) = some .unmapped then some .noRef
      else
        match s.spreadFront with
        | none => none
        | some f =>
          if field p 7 8 + 65536 ≤ f then some .tooOld else if f + 4194304 < field p 7 8 then some .future else
              none) = (referenceRefusal s a).or (frontRefusal s a) := by
        have hfr : frontRefusal s a = match s.spreadFront with
        | none => none
        | some f =>
          if field p 7 8 + 65536 ≤ f then some .tooOld else if f + 4194304 < field p 7 8 then some .future else none := by
          cases hq : s.spreadFront <;> simp only [frontRefusal, hq, h4]
        rw [← hfr]
        unfold referenceRefusal
        rcases h6 with ⟨g1, g2, g3⟩ | ⟨g1, g2, g3⟩
        · rw [g3]
          simp only [g1, h5, true_and, zero_ne_one, false_and, if_false]
          have e1 : s.slots[field p 18 2]? = some s.slots[field p 18 2] := Vector.getElem?_eq_getElem g2
          rw [e1]
          simp only [Option.map_some, ne_eq, Option.some.injEq, Fin.getElem_fin]
          split_ifs <;> simp_all
        · rw [g3]
          simp only [g1, true_and, one_ne_zero, false_and, if_false]
          have e1 : s.channels[field p 18 2]? = some s.channels[field p 18 2] := Vector.getElem?_eq_getElem g2
          rw [e1]
          simp only [Option.map_some, Option.some.injEq, Fin.getElem_fin]
          split_ifs <;> simp_all
      cases hm : k.map[field p 6 1 - 1]? with
      | none => simp
      | some m =>
        cases m <;> simp only [MapEntry.mayAnnounce, Option.map_some, ne_eq, not_true_eq_false, if_false, Option.some.injEq,
            Bool.false_eq_true, not_false_iff, if_true]
        · refine Eq.trans ?_ (Eq.trans hmain ?_)
          · simp only [ne_eq]
            try rfl
          · cases (referenceRefusal s a).or (frontRefusal s a) <;> rfl
        · refine Eq.trans ?_ (Eq.trans hmain ?_)
          · simp only [ne_eq]
            try rfl
          · cases (referenceRefusal s a).or (frontRefusal s a) <;> rfl

/-- Condition 1 of R123, field by field. -/
theorem readStackSettings_eq_none (p : List Byte) : readStackSettings p = none ↔
      (field p 0 4 = 0 ∨ field p 4 1 = 0 ∨ 32 < field p 4 1 ∨ 1 < field p 5 1 ∨ field p 6 2 < 64 ∨ 8192 < field p 6 2 ∨
        31 < field p 8 1 ∨ 5 < field p 9 1 ∨ (31 < field p 10 1 ∧ field p 10 1 ≠ 255) ∨ 1 < field p 11 1 ∨ 1 < field p 12 1 ∨
        7 < field p 13 1) := by
  unfold readStackSettings
  have h1 := ofCode_eq_none weightingList (field p 5 1)
  have h2 := ofCode_eq_none divWindowList (field p 9 1)
  have h4 := ofCode_eq_none gapList (field p 11 1)
  have h5 := ofCode_eq_none flagList (field p 12 1)
  have h3 : readFloor (field p 10 1) = none ↔ (31 < field p 10 1 ∧ field p 10 1 ≠ 255) := by
    unfold readFloor; split <;> [skip; split] <;> simp <;> omega
  simp only [weightingList, divWindowList, gapList, flagList, List.length_cons, List.length_nil] at h1 h2 h4 h5
  simp only [weightingList, divWindowList, gapList, flagList]
  split
  · rename_i e1 e2 e3 e4 e5
    rw [e1] at h1; rw [e2] at h2; rw [e3] at h3; rw [e4] at h4; rw [e5] at h5
    simp only [reduceCtorEq, false_iff] at h1 h2 h3 h4 h5
    split <;> simp <;> omega
  · rename_i hn
    simp only [true_iff]
    cases e1 : ofCode [Weighting.plain, Weighting.diversity] (field p 5 1) with
    | none => have := h1.mp e1; omega
    | some a =>
      cases e2 : ofCode [64, 128, 256, 512, 1024, 2048] (field p 9 1) with
      | none => have := h2.mp e2; omega
      | some b =>
        cases e3 : readFloor (field p 10 1) with
        | none => have := h3.mp e3; omega
        | some c =>
          cases e4 : ofCode [GapPolicy.zero, .drop] (field p 11 1) with
          | none => have := h4.mp e4; omega
          | some d =>
            cases e5 : ofCode [false, true] (field p 12 1) with
            | none => have := h5.mp e5; omega
            | some e => exact absurd e5 (hn _ _ _ _ _ e1 e2 e3 e4)

/-- The VP tag of the settings read is the one the payload carries. -/
theorem readStackSettings_vp (p : List Byte) (k : StackSettings) (h : readStackSettings p = some k) : k.vp = field p 0 4 := by
  unfold readStackSettings at h
  split at h
  · split at h
    · simp at h; rw [← h]
    · cases h
  · cases h

/-- Lawful settings are read back from an STKOPEN, the floor given as its value or as DEFAULT (R122, R194). -/
theorem readStackSettings_payload (k : StackSettings) (code : Nat) (hk : k.Lawful)
    (hc : code = k.floor ∨ (code = 255 ∧ k.floor = 8)) :
    readStackSettings (stkopenPayload { k with floor := code }) = some k := by
  obtain ⟨⟨v1, v2⟩, ⟨e1, e2⟩, ⟨l1, l2⟩, hs, hw, hf, hr⟩ := hk
  generalize hp : stkopenPayload { k with floor := code } = p
  have one : ∀ n, n < 256 → (byteOf n).toNat + 256 * 0 = n := by
    intro n hn; simp only [byteOf, BitVec.toNat_ofNat]; omega
  have f0 : field p 0 4 = k.vp := by subst hp; show leNat (leBytes 4 k.vp) = _; rw [leNat_leBytes]; omega
  have f4 : field p 4 1 = k.expected := by subst hp; exact one k.expected (by omega)
  have f5 : field p 5 1 = (codeByte weightingList k.weighting).toNat := by subst hp; rfl
  have f6 : field p 6 2 = k.listen := by subst hp; show leNat (leBytes 2 k.listen) = _; rw [leNat_leBytes]; omega
  have f8 : field p 8 1 = k.shift := by subst hp; exact one k.shift (by omega)
  have f9 : field p 9 1 = (codeByte divWindowList k.divWindow).toNat := by subst hp; rfl
  have f10 : field p 10 1 = code := by subst hp; exact one code (by omega)
  have f11 : field p 11 1 = (codeByte gapList k.gap).toNat := by subst hp; rfl
  have f12 : field p 12 1 = (flagByte k.keepSweeps).toNat := by subst hp; rfl
  have f13 : field p 13 1 = k.retryLimit := by subst hp; exact one k.retryLimit (by omega)
  have g1 : ofCode weightingList (codeByte weightingList k.weighting).toNat = some k.weighting :=
    ofCode_codeByte (by cases k.weighting <;> decide) (by decide)
  have g2 : ofCode divWindowList (codeByte divWindowList k.divWindow).toNat = some k.divWindow :=
    ofCode_codeByte hw (by decide)
  have g3 : ofCode gapList (codeByte gapList k.gap).toNat = some k.gap :=
    ofCode_codeByte (by cases k.gap <;> decide) (by decide)
  have g4 : ofCode flagList (flagByte k.keepSweeps).toNat = some k.keepSweeps := by cases k.keepSweeps <;> rfl
  have g5 : readFloor code = some k.floor := by
    unfold readFloor
    rcases hc with rfl | ⟨rfl, h⟩
    · rw [if_pos hf]
    · rw [h]; rfl
  unfold readStackSettings
  rw [f0, f4, f5, f6, f8, f9, f10, f11, f12, f13, g1, g2, g3, g4, g5]
  dsimp only
  rw [if_pos ⟨v1, e1, e2, l1, l2, hs, hr⟩]

/-- A description is refused exactly where its component part is 3 or its state part 3 or more (section 11.1). -/
theorem readDescription_eq_none (p : List Byte) :
    readDescription p = none ↔ (field p 6 1 % 4 = 3 ∨ 24 ≤ field p 6 1) := by
  have e0 := ofCode_eq_none componentList (field p 6 1 % 4)
  have e1 := ofCode_eq_none polarityList (field p 6 1 / 4 % 2)
  have e2 := ofCode_eq_none channelStateList (field p 6 1 / 8)
  simp only [componentList, polarityList, channelStateList, List.length_cons, List.length_nil] at e0 e1 e2
  unfold readDescription
  simp only []
  split
  · rename_i h0 h1 h2
    simp only [componentList, polarityList, channelStateList] at h0 h1 h2
    rw [h0] at e0
    rw [h2] at e2
    simp only [reduceCtorEq, false_iff, not_le] at e0 e2 ⊢
    omega
  · rename_i hn
    simp only [true_iff]
    by_contra hc
    cases h0 : ofCode componentList (field p 6 1 % 4) with
    | none => have := e0.mp h0; omega
    | some a =>
      cases h1 : ofCode polarityList (field p 6 1 / 4 % 2) with
      | none => have := e1.mp h1; omega
      | some b =>
        cases h2 : ofCode channelStateList (field p 6 1 / 8) with
        | none => have := e2.mp h2; omega
        | some c => exact hn _ _ _ h0 h1 h2

/-- A CHMAP's list is refused exactly where the attributes byte of one of its descriptions is (R3). -/
theorem readDescriptions_eq_none (p : List Byte) : readDescriptions p = none ↔
    ∃ j, j < field p 2 1 ∧ (field p (9 + 7 * j) 1 % 4 = 3 ∨ 24 ≤ field p (9 + 7 * j) 1) := by
  unfold readDescriptions
  rw [allSome_eq_none, List.mem_map]
  have hf : ∀ j, field (((p.drop 3).drop (7 * j)).take 7) 6 1 = field p (9 + 7 * j) 1 := by
    intro j
    simp only [field, List.drop_take, List.take_take, List.drop_drop]
    congr 2; congr 1; ring
  constructor
  · rintro ⟨b, hb, hn⟩
    obtain ⟨j, hj⟩ := List.mem_iff_getElem?.mp hb
    have hjl : j < field p 2 1 := by
      have := (List.getElem?_eq_some_iff.mp hj).1
      rwa [chunks_length] at this
    rw [chunks_getElem? _ _ _ _ hjl] at hj
    cases hj
    exact ⟨j, hjl, by rw [← hf]; exact (readDescription_eq_none _).mp hn⟩
  · rintro ⟨j, hj, hn⟩
    exact ⟨_, List.mem_iff_getElem?.mpr ⟨j, chunks_getElem? _ _ _ _ hj⟩, (readDescription_eq_none _).mpr (by rwa [hf])⟩

/-- An LNPOLICY with a setting outside its column is refused (R39). -/
theorem readLinePolicy_eq_none {p : List Byte}
    (h : 7 < field p 1 1 ∨ 15 < field p 2 1 ∨ 2 < field p 3 1 ∨ 5 < field p 4 1 ∨ 6 < field p 5 1) :
    readLinePolicy p = none := by
  unfold readLinePolicy
  have e1 := ofCode_eq_none slipLimitList (field p 1 1)
  have e2 := ofCode_eq_none faultModeList (field p 3 1)
  have e3 := ofCode_eq_none retryWaitList (field p 4 1)
  have e4 := ofCode_eq_none retryLimitList (field p 5 1)
  simp only [slipLimitList, faultModeList, retryWaitList, retryLimitList, List.length_cons, List.length_nil] at e1 e2 e3 e4
  split
  · rename_i h1 h2 h3 h4
    rw [if_neg]
    intro hc
    simp only [slipLimitList, faultModeList, retryWaitList, retryLimitList] at h1 h2 h3 h4
    rw [h1] at e1
    rw [h2] at e2
    rw [h3] at e3
    rw [h4] at e4
    simp only [reduceCtorEq, false_iff, not_le] at e1 e2 e3 e4
    omega
  · rfl

/-- A QCPOLICY with a setting outside its column is refused (R102). -/
theorem readQcPolicy_eq_none {p : List Byte}
    (h : 7 < field p 0 1 ∨ 3 < field p 1 1 ∨ 6 < field p 2 1 ∨ 3 < field p 3 1 ∨ 7 < field p 4 1 ∨ 3 < field p 5 1 ∨
      1 < field p 6 1 ∨ 6 < field p 7 1 ∨ 2 < field p 8 1) : readQcPolicy p = none := by
  unfold readQcPolicy
  have e0 := ofCode_eq_none phaseLimitList (field p 0 1)
  have e1 := ofCode_eq_none qcActionList (field p 1 1)
  have e2 := ofCode_eq_none distortionLimitList (field p 2 1)
  have e3 := ofCode_eq_none qcActionList (field p 3 1)
  have e4 := ofCode_eq_none forceFloorList (field p 4 1)
  have e5 := ofCode_eq_none qcActionList (field p 5 1)
  have e6 := ofCode_eq_none flagList (field p 6 1)
  have e7 := ofCode_eq_none waitLimitList (field p 7 1)
  have e8 := ofCode_eq_none timeoutActionList (field p 8 1)
  split
  · rename_i h0 h1 h2 h3 h4 h5 h6 h7 h8
    exfalso
    rw [h0] at e0
    rw [h1] at e1
    rw [h2] at e2
    rw [h3] at e3
    rw [h4] at e4
    rw [h5] at e5
    rw [h6] at e6
    rw [h7] at e7
    rw [h8] at e8
    simp only [phaseLimitList, qcActionList, distortionLimitList, forceFloorList, flagList, waitLimitList, timeoutActionList,
      List.length_cons, List.length_nil, reduceCtorEq, false_iff, not_le] at e0 e1 e2 e3 e4 e5 e6 e7 e8
    omega
  · rfl

end Sys2Proof.Machine
end

