-- ==== Sys2Proof/Laws/Ring.lean ====
section
/-! SUPPORT. Laws of the sample ring: what a write leaves at each position, and that every operation keeps the canonical form (R6, R7). -/

namespace Sys2Proof.Machine

/-- One cell of a ring in canonical form: at the position of its tag, a 48-bit tag, 1 to 120 samples. -/
def cellWf (c : Nat × RingCell) : Prop :=
  c.1 < 65536 ∧ c.1 = ringPosition c.2.tag ∧ 1 ≤ c.2.samples.length ∧ c.2.samples.length ≤ 120 ∧ c.2.tag < 281474976710656

/-- The canonical form as a proposition. -/
theorem ringWf_iff (r : Ring) : ringWf r = true ↔ (r.map (·.1)).Pairwise (· < ·) ∧ ∀ c ∈ r, cellWf c := by
  simp [ringWf, cellWf, and_assoc]

/-- Nothing is listed at a position below every listed one. -/
theorem ringRead_below {r : Ring} {p : Nat} (h : ∀ c ∈ r, p < c.1) : ringRead r p = none := by
  induction r with
  | nil => rfl
  | cons c r ih =>
    obtain ⟨q, x⟩ := c
    have hq : p < q := h (q, x) (by simp)
    rw [ringRead, if_neg (by omega), ih fun y hy => h y (by simp [hy])]

/-- In a ring in canonical form the cell read at a position is the listed one. -/
theorem ringRead_eq_some {r : Ring} (h : (r.map (·.1)).Pairwise (· < ·)) {p : Nat} {x : RingCell} :
    ringRead r p = some x ↔ (p, x) ∈ r := by
  induction r with
  | nil => simp [ringRead]
  | cons c r ih =>
    obtain ⟨q, y⟩ := c
    simp only [List.map_cons, List.pairwise_cons] at h
    by_cases hq : q = p
    · subst hq
      rw [ringRead, if_pos rfl]
      constructor
      · intro e; cases e; simp
      · intro m
        rcases List.mem_cons.mp m with e | m
        · cases e; rfl
        · exact absurd (h.1 q (List.mem_map.mpr ⟨_, m, rfl⟩)) (lt_irrefl q)
    · rw [ringRead, if_neg hq, ih h.2]
      simp [Ne.symm hq]

/-- What a stored cell leaves at each position. -/
theorem ringRead_ringPut (r : Ring) (p q : Nat) (x : RingCell) (h : (r.map (·.1)).Pairwise (· < ·)) :
    ringRead (ringPut r p x) q = if p = q then some x else ringRead r q := by
  induction r with
  | nil => simp only [ringPut, ringRead]
  | cons c r ih =>
    obtain ⟨t, y⟩ := c
    simp only [List.map_cons, List.pairwise_cons] at h
    rw [ringPut]
    split
    · simp only [ringRead]
    · split
      · rename_i h1 h2
        subst h2
        simp only [ringRead]
        by_cases hq : p = q
        · simp [hq]
        · simp [hq]
      · rename_i h1 h2
        simp only [ringRead, ih h.2]
        by_cases ht : t = q
        · rw [if_pos ht, if_pos ht, if_neg (by omega)]
        · rw [if_neg ht, if_neg ht]

/-- The cells of a ring after a cell is stored. -/
theorem mem_ringPut {r : Ring} {p : Nat} {x : RingCell} {c : Nat × RingCell} (hc : c ∈ ringPut r p x) :
    c = (p, x) ∨ c ∈ r := by
  induction r with
  | nil => simpa [ringPut] using hc
  | cons d r ih =>
    obtain ⟨t, y⟩ := d
    rw [ringPut] at hc
    split at hc
    · simpa using hc
    · split at hc
      · rcases List.mem_cons.mp hc with h | h
        · exact .inl h
        · exact .inr (by simp [h])
      · rcases List.mem_cons.mp hc with h | h
        · exact .inr (by simp [h])
        · rcases ih h with h | h
          · exact .inl h
          · exact .inr (by simp [h])

theorem ringPut_rising {r : Ring} {p : Nat} {x : RingCell} (h : (r.map (·.1)).Pairwise (· < ·)) :
    ((ringPut r p x).map (·.1)).Pairwise (· < ·) := by
  induction r with
  | nil => simp [ringPut]
  | cons d r ih =>
    obtain ⟨t, y⟩ := d
    simp only [List.map_cons, List.pairwise_cons] at h
    rw [ringPut]
    split
    · rename_i hp
      simp only [List.map_cons, List.pairwise_cons, List.mem_cons]
      refine ⟨?_, h⟩
      rintro a (rfl | ha)
      · exact hp
      · exact lt_trans hp (h.1 a ha)
    · split
      · rename_i hp he
        simp only [List.map_cons, List.pairwise_cons]
        exact ⟨fun a ha => he ▸ h.1 a ha, h.2⟩
      · rename_i hp he
        simp only [List.map_cons, List.pairwise_cons, List.mem_map]
        refine ⟨?_, ih h.2⟩
        rintro a ⟨c, hc, rfl⟩
        rcases mem_ringPut hc with rfl | hc
        · show t < p; omega
        · exact h.1 _ (List.mem_map.mpr ⟨c, hc, rfl⟩)

/-- Storing a cell of a frame keeps the canonical form. -/
theorem ringWf_ringPut {r : Ring} {x : RingCell} (h : ringWf r = true) (hx : cellWf (ringPosition x.tag, x)) :
    ringWf (ringPut r (ringPosition x.tag) x) = true := by
  rw [ringWf_iff] at h ⊢
  refine ⟨ringPut_rising h.1, fun c hc => ?_⟩
  rcases mem_ringPut hc with rfl | hc
  · exact hx
  · exact h.2 c hc

theorem ringEmptySkipped_sublist (r : Ring) (f : Option Nat) (i : Nat) : (ringEmptySkipped r f i).Sublist r := by
  unfold ringEmptySkipped
  cases f with
  | none => exact List.Sublist.refl r
  | some f => exact List.filter_sublist

/-- Emptying skipped positions keeps the canonical form. -/
theorem ringWf_ringEmptySkipped {r : Ring} {f : Option Nat} {i : Nat} (h : ringWf r = true) :
    ringWf (ringEmptySkipped r f i) = true := by
  rw [ringWf_iff] at h ⊢
  have hs := ringEmptySkipped_sublist r f i
  exact ⟨h.1.sublist (hs.map _), fun c hc => h.2 c (hs.subset hc)⟩

/-- The write of a valid frame keeps the canonical form (R7). -/
theorem ringWf_ringWrite {r : Ring} {f : Option Nat} {i : Nat} {ds : List Sample} (h : ringWf r = true)
    (hi : i < 281474976710656) (h1 : 1 ≤ ds.length) (h2 : ds.length ≤ 120) : ringWf (ringWrite r f i ds) = true :=
  ringWf_ringPut (x := { tag := i, samples := ds }) (ringWf_ringEmptySkipped h)
    ⟨Nat.mod_lt i (by decide), rfl, h1, h2, hi⟩

/-- A position is skipped exactly when some index strictly between the front and the frame's index stands at it (R7). -/
theorem skips_iff {f i pos : Nat} (hp : pos < 65536) :
    skips f i pos = true ↔ ∃ j, f < j ∧ j < i ∧ ringPosition j = pos := by
  simp only [skips, decide_eq_true_eq, Config.ringDepth, ringPosition]
  constructor
  · intro h
    exact ⟨_, by omega, h, by omega⟩
  · rintro ⟨j, h1, h2, rfl⟩
    omega

/-- A read after emptying the skipped positions. -/
theorem ringRead_ringEmptySkipped (r : Ring) (f i q : Nat) (h : (r.map (·.1)).Pairwise (· < ·)) :
    ringRead (ringEmptySkipped r (some f) i) q = if skips f i q = true then none else ringRead r q := by
  have hs : ((ringEmptySkipped r (some f) i).map (·.1)).Pairwise (· < ·) :=
    h.sublist ((ringEmptySkipped_sublist r (some f) i).map _)
  apply Option.ext
  intro x
  rw [ringRead_eq_some hs]
  split
  · rename_i hk
    simp [ringEmptySkipped, hk]
  · rename_i hk
    rw [ringRead_eq_some h]
    simp [ringEmptySkipped, hk]

/-- What the write of a frame leaves at each position: the frame at its own, nothing at a skipped one, the old cell elsewhere
(R7). -/
theorem ringRead_ringWrite (r : Ring) (f : Option Nat) (i q : Nat) (ds : List Sample) (h : ringWf r = true) :
    ringRead (ringWrite r f i ds) q =
      if ringPosition i = q then some { tag := i, samples := ds }
      else match f with
        | none => ringRead r q
        | some f => if skips f i q = true then none else ringRead r q := by
  have hr := ((ringWf_iff r).mp h).1
  have hs : ((ringEmptySkipped r f i).map (·.1)).Pairwise (· < ·) := hr.sublist ((ringEmptySkipped_sublist r f i).map _)
  rw [ringWrite, ringRead_ringPut _ _ _ _ hs]
  cases f with
  | none => rfl
  | some f => rw [ringRead_ringEmptySkipped r f i q hr]

/-- A written sample is read back (R7, R10). -/
theorem ringSample_ringWrite_same (r : Ring) (f : Option Nat) (i slot : Nat) (ds : List Sample) (h : ringWf r = true) :
    ringSample (ringWrite r f i ds) slot i = ds[slot]? := by
  rw [ringSample, ringRead_ringWrite r f i _ ds h, if_pos rfl]
  simp

/-- An index whose position is neither written nor skipped reads as before (R7, R10). -/
theorem ringSample_ringWrite_other (r : Ring) (f i j slot : Nat) (ds : List Sample) (h : ringWf r = true)
    (hne : ringPosition i ≠ ringPosition j) (hk : skips f i (ringPosition j) = false) :
    ringSample (ringWrite r (some f) i ds) slot j = ringSample r slot j := by
  rw [ringSample, ringRead_ringWrite r (some f) i _ ds h, if_neg hne]
  simp [hk, ringSample]

/-- The rings after reset are in canonical form. -/
theorem ringWf_reset (p : Fin 4) : ringWf State.reset.ports[p].ring = true := by
  fin_cases p <;> rfl

end Sys2Proof.Machine
end

