-- ==== Sys2Proof/Laws/Stacks.lean ====
section
/-! SUPPORT. Laws of the channel list a completion fixes (R148) and of the discards of STKDROP (R79, R140). -/

namespace Sys2Proof.Machine

/-- The channel list is in ascending order and holds exactly the channels that are not UNMAPPED (R148). -/
theorem listedChannels_spec (s : State) :
    (s.listedChannels.map (·.channel)).Pairwise (· < ·) ∧
      ∀ x, x ∈ s.listedChannels ↔ s.channels[x.channel].state = x.state ∧ x.state ≠ .unmapped := by
  have hz : (List.finRange 480).zip s.channels.toList = (List.finRange 480).map fun c => (c, s.channels[c]) := by
    apply List.ext_getElem
    · simp
    · intro i h1 h2; simp
  have : s.listedChannels = ((List.finRange 480).filter fun c => s.channels[c].state ≠ .unmapped).map fun c =>
      { channel := c, state := s.channels[c].state } := by
    unfold State.listedChannels
    rw [hz, List.filterMap_map]
    generalize List.finRange 480 = l
    induction l with
    | nil => rfl
    | cons a l ih =>
      by_cases h : s.channels[a].state = .unmapped
      · rw [List.filterMap_cons_none (by simp [-Fin.getElem_fin, Function.comp, h]), ih,
          List.filter_cons_of_neg (by simp [-Fin.getElem_fin, h])]
      · rw [List.filterMap_cons_some (by simp only [Function.comp]; rw [if_neg h]), ih,
          List.filter_cons_of_pos (by simp [-Fin.getElem_fin, h])]; rfl
  rw [this]
  constructor
  · rw [List.map_map]
    have : ∀ l : List (Fin 480),
        l.map ((·.channel) ∘ fun c => ({ channel := c, state := s.channels[c].state } : ListedChannel)) = l := by
      intro l; simp [-Fin.getElem_fin, Function.comp_def]
    rw [this]
    exact (List.pairwise_lt_finRange 480).filter _
  · intro x
    constructor
    · intro h
      simp only [List.mem_map, List.mem_filter] at h
      obtain ⟨c, ⟨_, hc⟩, rfl⟩ := h
      exact ⟨rfl, by simpa [-Fin.getElem_fin] using hc⟩
    · rintro ⟨h1, h2⟩
      simp only [List.mem_map, List.mem_filter]
      refine ⟨x.channel, ⟨List.mem_finRange _, by simp [-Fin.getElem_fin, h1, h2]⟩, ?_⟩
      rw [h1]

/-- The channel list is the only list of that kind. -/
theorem listedChannels_unique (s : State) (l : List ListedChannel) (h1 : (l.map (·.channel)).Pairwise (· < ·))
    (h2 : ∀ x, x ∈ l ↔ s.channels[x.channel].state = x.state ∧ x.state ≠ .unmapped) : l = s.listedChannels := by
  have hn := listedChannels_spec s
  have p1 : l.Pairwise (fun a b => a.channel < b.channel) := List.pairwise_map.mp h1
  have p2 : s.listedChannels.Pairwise (fun a b => a.channel < b.channel) := List.pairwise_map.mp hn.1
  have perm : l.Perm s.listedChannels := by
    rw [List.perm_ext_iff_of_nodup]
    · intro x; rw [h2, hn.2]
    · exact p1.imp (fun {a b} h e => by subst e; exact lt_irrefl _ h)
    · exact p2.imp (fun {a b} h e => by subst e; exact lt_irrefl _ h)
  exact perm.eq_of_pairwise (fun a b _ _ hab hba => absurd (lt_trans hab hba) (lt_irrefl _)) p1 p2

/-- Discarding sweeps reads no command port. -/
theorem foldl_discard_setCmd (c : CommandPort) (l : List SweepEntry) : ∀ s : State,
    l.foldl (fun s e => s.abortSweep e .discarded) { s with cmd := c } =
      { l.foldl (fun s e => s.abortSweep e .discarded) s with cmd := c } := by
  induction l with
  | nil => intro s; rfl
  | cons e l ih => intro s; simp only [List.foldl_cons]; rw [State.abortSweep_setCmd]; exact ih _

/-- Discarding sweeps is their leaving, each with its SWABORT (R79). -/
theorem foldl_discard_eq (l : List SweepEntry) : ∀ s : State,
    l.foldl (fun s e => s.abortSweep e .discarded) s =
      l.foldl (fun x e => State.post (x.withoutSweep e) (.swAbort e.tag e.vp e.number .discarded)) s := by
  induction l with
  | nil => intro s; rfl
  | cons e l ih =>
    intro s; simp only [List.foldl_cons]
    have : s.abortSweep e .discarded = State.post (s.withoutSweep e) (.swAbort e.tag e.vp e.number .discarded) := by
      unfold State.abortSweep; rw [State.leave_abort]; simp [State.offerAborted, AbortReason.record, AbortReason.cause]
    rw [this]; exact ih _

/-- Discarding sweeps keeps the command port. -/
theorem foldl_discard_cmd (l : List SweepEntry) : ∀ s : State,
    (l.foldl (fun s e => s.abortSweep e .discarded) s).cmd = s.cmd := by
  induction l with
  | nil => intro s; rfl
  | cons e l ih => intro s; simp only [List.foldl_cons]; rw [ih]; simp

/-- Removing a stack after a notice is removing it before. -/
theorem State.dropStack_post (x : State) (b : NoticeBody) (vp : Nat) : (x.post b).dropStack vp = (x.dropStack vp).post b := by
  unfold State.post
  split
  · rw [if_pos (by assumption)]; rfl
  · rw [if_neg (by assumption)]; rfl

end Sys2Proof.Machine
end

