-- ==== Sys2Proof/Tests/Slice0.lean ====
section
/-! SUPPORT. Tests: the checks of WellFormed, the worked examples of the spec, small tests of the commands, and a witness for the hypotheses of each statement. Expected values come from the spec's text; each test names its place. -/

set_option Elab.async false

namespace Sys2Proof.Tests

open Sys2Proof Sys2Proof.Machine

/-! ### Small states -/

/-- The part after reset, once its initialization interval has ended. -/
def calm : State := { State.reset with cmd := { State.reset.cmd with initInterval := false } }

/-- A state about to take one request. -/
def asked (s : State) (r : Request) : State := { s with cmd := { s.cmd with inputQueue := [r] } }

/-- The state after a command, unchanged where it has none. -/
def after (c : Instr) (s : State) : State :=
  match exec c s with
  | .next t => t
  | _ => s

/-- The state after a request is sent addressed and taken. -/
def take (s : State) (kind : Byte) (p : List Byte) (c : Instr) : State :=
  after c (asked s { kind := kind, payload := p, ak := .addressed })

/-- The result and the payload of the answer being sent. -/
def answer (s : State) : Option (Result × List Byte) :=
  match s.cmd.uplink with
  | .sending a _ => some (a.result, a.payload)
  | .quiet => none

/-- The notices held. -/
def posted (s : State) : List NoticeBody := s.nq.notices.map (·.body)

/-- The part with one port in a state, its timers set by the caller. -/
def withPort (s : State) (p : Fin 4) (x : Port) : State := { s with ports := s.ports.set p x }

/-- Settings of a small stack: M = 2, DIVERSITY, Ll = 64, q = 4, Lw = 64, Lf = 8, ZERO, no sweep records, one retry. -/
def settings : StackSettings :=
  { vp := 9, expected := 2, weighting := .diversity, listen := 64, shift := 4, divWindow := 64, floor := 8, gap := .zero
    keepSweeps := false, retryLimit := 1 }

/-- The part with one OPEN stack of those settings. -/
def opened : State := { calm with stackTable := [Stack.new settings] }

/-- An announced sweep of that stack. -/
def entry : SweepEntry :=
  { tag := 7, vp := 9, number := 1, start := 1000, length := 256, reference := .pilot 5 0, windowEnd := 1318
    state := .waiting, qc := none, lane := none, qcTimer := none }

/-- The small stack with that sweep announced. -/
def announcedStack : Stack := { Stack.new settings with map := [.announced 7, .unshot] }

/-- The part with that sweep listed. -/
def listed (e : SweepEntry) : State := { calm with stackTable := [announcedStack], sweeps := [e] }

/-- The part with that sweep in a lane. -/
def laned (e : SweepEntry) (x : LaneState) : State :=
  { listed { e with lane := some 0 } with
    lanes := calm.lanes.set 0
      { state := x, held := some 7, params := some (jobParams e settings), snapshot := [], reference := [], clipCount := 0
        window := [], result := [] } }

/-! ### WellFormed refuses an ill-formed term at each of its checks -/

theorem test_wf_payload : (Instr.chmap .addressed (List.replicate 1025 0#8)).wellFormed = false := by decide +kernel
theorem test_wf_payload_longest : (Instr.chmap .addressed (List.replicate 1024 0#8)).wellFormed = true := by decide +kernel
theorem test_wf_addressed_payload : (Instr.probe (List.replicate 1025 0#8)).wellFormed = false := by decide +kernel
theorem test_wf_unknown_kind : (Instr.unknownRequest .addressed 5#8 []).wellFormed = false := by decide
theorem test_wf_unknown_payload :
    (Instr.unknownRequest .addressed 32#8 (List.replicate 1025 0#8)).wellFormed = false := by decide +kernel
theorem test_wf_length : (Instr.inconsistentLength 1#8 0#8).wellFormed = false := by decide
theorem test_wf_length_bounds :
    (Instr.inconsistentLength 0#8 0#8).wellFormed = true ∧ (Instr.inconsistentLength 1#8 4#8).wellFormed = false ∧
      (Instr.inconsistentLength 2#8 4#8).wellFormed = true := by decide
theorem test_wf_frame : (Instr.requestFrame [1#8, 0#8, 26#8, 0#8]).wellFormed = false := by decide
theorem test_wf_line_start : (Instr.lineFrame 0 [0x7E#8, 0x80#8]).wellFormed = false := by decide
theorem test_wf_sweep_tag :
    (Instr.qcWaitExpiry 0).wellFormed = false ∧ (Instr.qcWaitExpiry 65536).wellFormed = false := by decide
theorem test_wf_vp_tag :
    (Instr.finalizeCompletion 0).wellFormed = false ∧ (Instr.finalizeCompletion 4294967296).wellFormed = false := by decide

/-- The table gives no row bits, so no word is a command and the queue stays as it is (log entry 2). -/
theorem test_no_table_word (s : State) (n w : Nat) : decodeTableWord n w = none ∧ s.withFetchWord n w = s := ⟨rfl, rfl⟩

/-! ### The spec's worked examples -/

/-- R169: the check of the nine bytes 31h to 39h is 29B1h. -/
theorem test_check : check [0x31#8, 0x32#8, 0x33#8, 0x34#8, 0x35#8, 0x36#8, 0x37#8, 0x38#8, 0x39#8] = 0x29B1#16 := by
  decide +kernel

/-- 1.6.1: the ring of port 1 before the frame 1,000,004. -/
def slipRing : Ring :=
  [(16960, { tag := 1000000, samples := [1#24, 2#24] }), (16961, { tag := 1000001, samples := [3#24, 4#24] }),
   (16962, { tag := 934466, samples := [5#24, 6#24] }), (16963, { tag := 934467, samples := [7#24, 8#24] }),
   (16964, { tag := 934468, samples := [9#24, 10#24] }), (16965, { tag := 934469, samples := [11#24, 12#24] })]

/-- 1.6.1: the write of index 1,000,004 empties the positions of 1,000,002 and 1,000,003 and stores fewer slots. -/
theorem test_ring_slip :
    ringWrite slipRing (some 1000001) 1000004 [13#24] =
      [(16960, { tag := 1000000, samples := [1#24, 2#24] }), (16961, { tag := 1000001, samples := [3#24, 4#24] }),
       (16964, { tag := 1000004, samples := [13#24] }), (16965, { tag := 934469, samples := [11#24, 12#24] })] := by
  decide +kernel

/-- 1.6.1: slot 1 is absent at 1,000,004, and index 1,000,005 is absent although its position is filled. -/
theorem test_ring_absent :
    let r := ringWrite slipRing (some 1000001) 1000004 [13#24]
    ringSample r 1 1000001 = some 4#24 ∧ ringSample r 1 1000002 = none ∧ ringSample r 0 1000004 = some 13#24 ∧
      ringSample r 1 1000004 = none ∧ ringSample r 1 1000005 = none := by decide +kernel

/-- 1.6.2: a gap longer than the ring leaves the new frame alone, at position 51,424. -/
theorem test_ring_gap :
    ringWrite slipRing (some 1000004) 1100000 [1#24] = [(51424, { tag := 1100000, samples := [1#24] })] := by decide +kernel

/-- 3.6.3: the pilot samples of the table, their reference values and their clip count. -/
theorem test_pilot :
    let ds : List Sample := [1000#24, 8#24, 7#24, -24#24, 524271#24, -524280#24, 600000#24]
    (pilotReference 4 .normal ds).map BitVec.toInt = [63, 1, 0, -2, 32767, -32767, 32767] ∧ pilotClips 4 .normal ds = 2 ∧
      (pilotReference 4 .reversed [1000#24, -524280#24]).map BitVec.toInt = [-63, 32767] ∧
      pilotClips 4 .reversed [1000#24, -524280#24] = 1 := by decide +kernel

/-- 5.8.1 and 5.8.2: the window of the channel, with its sample at S + 2. -/
def exampleWindow (third : Option Sample) : List (Option Sample) :=
  [some 1000#24, some 2000#24, third, some 500#24, some 0#24, some 4000#24] ++ List.replicate 313 (some 0#24)

/-- 5.8.1: the reference of 256 samples. -/
def exampleReference : List Int := [100, -200, 300, -50] ++ List.replicate 252 0

/-- 5.8.1: Ls = 256, Ll = 64, Lw = 64, q = 4. -/
def exampleJob (gap : GapPolicy) : JobParams :=
  { start := 0, length := 256, windowEnd := 318, listen := 64, shift := 4, divWindow := 64, gap := gap }

/-- 5.8.1: the first samples, the saturated count and the level. -/
theorem test_correlation :
    let t := traceResult (exampleJob .zero) exampleReference 0 .normal (exampleWindow (some (-1500#24)))
    t.samples.take 7 = [-48438, 40625, -28125, 78125, -50000, 25000, 0] ∧ t.samples.length = 64 ∧ t.holed = false ∧
      t.saturated = 0 ∧ t.levels = [17] := by decide +kernel

/-- 5.8.2: an absent sample reads as zero and marks the trace HOLED under ZERO, and DROPPED under DROP. -/
theorem test_gaps :
    let t := traceResult (exampleJob .zero) exampleReference 0 .normal (exampleWindow none)
    t.samples.take 4 = [-20313, 21875, -18750, 78125] ∧ t.holed = true ∧ t.levels = [17] ∧
      (traceResult (exampleJob .drop) exampleReference 0 .normal (exampleWindow none)).dropped = true := by decide +kernel

/-- 5.8.3: sums at and beyond the bounds of the clamp. -/
theorem test_saturation :
    clampTo traceBound (roundShift 4 1099511627776) = 2147483647 ∧
      clampTo traceBound (roundShift 4 (-1099511627776)) = -2147483647 ∧
      clampTo traceBound (roundShift 0 (-2147483648)) = -2147483647 ∧ clamps traceBound (-2147483648) = true ∧
      clamps traceBound 2147483647 = false ∧ roundShift 1 4294967293 = 2147483647 ∧
      roundShift 1 4294967295 = 2147483648 ∧ bitLength 2147483647 = 31 := by decide +kernel

/-- 6.7.1: the verdicts of the table under the default policy, and with the phase action OFF. -/
theorem test_verdicts :
    let v (q : QcPolicy) (a b c : Nat) := (verdictOf q (failedChecks q a b c), reportedChecks q (failedChecks q a b c))
    let off : QcPolicy := { QcPolicy.reset with phaseAction := .off }
    v QcPolicy.reset 75 120 820 = (.pass, ⟨false, false, false⟩) ∧
      v QcPolicy.reset 80 300 600 = (.pass, ⟨false, false, false⟩) ∧
      v QcPolicy.reset 95 310 700 = (.note, ⟨true, true, false⟩) ∧
      v QcPolicy.reset 40 100 580 = (.retry, ⟨false, false, true⟩) ∧
      v QcPolicy.reset 120 100 550 = (.retry, ⟨true, false, true⟩) ∧
      v off 300 100 900 = (.pass, ⟨false, false, false⟩) ∧
      v { off with distortionAction := .reject } 300 450 900 = (.reject, ⟨false, true, false⟩) := by decide +kernel

/-- 7.11.1: the three sweeps at one lag under DIVERSITY, and the stacked sample. -/
theorem test_diversity :
    let trace (y : Int) (level : Nat) : TraceResult :=
      { channel := 0, dropped := false, holed := false, samples := [y], saturated := 0, levels := [level] }
    let a := accumulate settings (trace (-800000) 20) (accumulate settings (trace 1000 11)
      (accumulate settings (trace 30000 16)
        { numerators := [0], denominators := [0], mergeCount := 0, holed := false, saturatedTotal := 0 }))
    a.numerators = [393216000] ∧ a.denominators = [1083392] ∧ a.mergeCount = 3 ∧ stackedSamples 64 a = [363] ∧
      weight 8 0 = 8388608 := by decide +kernel

/-- R153: the division of the table. -/
theorem test_division :
    stackedSample 7 2 = 4 ∧ stackedSample (-7) 2 = -4 ∧ stackedSample 5 3 = 2 ∧ stackedSample (-4) 3 = -1 ∧
      stackedSample (-769000) 3 = -256333 := by decide

/-- 11.6: the sizes of the records and the notice STKDONE. -/
theorem test_layouts :
    stackRecordSize 470 2000 = 3767584 ∧ sweepRecordSize 470 2000 = 3767568 ∧
      ({ body := .stkDone 9001 212, stamp := 0 } : Notice).bytes.take 14 =
        [3#8, 9#8, 0x29#8, 0x23#8, 0#8, 0#8, 0xD4#8, 0#8, 0#8, 0#8, 0#8, 0#8, 0#8, 0#8] := by decide +kernel

/-- R194: codes the rule states. -/
theorem test_codes :
    codeOf portStateList .off = 0 ∧ codeOf portStateList .fault = 7 ∧ codeOf sweepStateList .qcWait = 4 ∧
      codeOf abortCauseList .discarded = 5 ∧ codeOf resultList .empty = 17 ∧ codeOf slipLimitList 512 = 7 ∧
      codeOf retryLimitList none = 6 ∧ codeOf divWindowList 2048 = 5 ∧ codeOf blockSizeList 8192 = 3 := by decide

/-! ### One step of each command -/

/-- 1.6.3: a CHMAP past slot 119 is refused RANGE and writes nothing. -/
theorem test_chmap_range :
    let d : ChannelEntry := { station := 3001, line := 17, component := .z, polarity := .normal, state := .live }
    let p := chmapPayload 2 112 (List.replicate 9 d)
    let t := take calm 1#8 p (.chmap .addressed p)
    answer t = some (.range, []) ∧ t.channels[352] = ChannelEntry.reset := by decide +kernel

/-- 1.6.3: the first channel of port 2 is channel 240. -/
theorem test_chmap :
    let d : ChannelEntry := { station := 3001, line := 17, component := .z, polarity := .normal, state := .live }
    let p := chmapPayload 2 0 [d]
    let t := take calm 1#8 p (.chmap .addressed p)
    answer t = some (.ok, []) ∧ t.channels[240] = d ∧ t.channels[241] = ChannelEntry.reset := by decide +kernel

/-- R4: a first channel of 100 and a count of 40 sets channels 100 to 139. -/
theorem test_chstate :
    let p := [100#8, 0#8, 40#8, 0#8, 1#8]
    let t := take calm 2#8 p (.chstate .addressed p)
    t.channels[99].state = .unmapped ∧ t.channels[100].state = .live ∧ t.channels[139].state = .live ∧
      t.channels[140].state = .unmapped := by decide +kernel

/-- R196: a sample of −5 is shown as FBh, FFh, FFh, FFh; the next index is absent. -/
theorem test_probe :
    let s := withPort calm 0 { Port.reset with front := some 70000, ring := [(4464, { tag := 70000, samples := [-5#24] })] }
    let p := [0#8, 0#8] ++ leBytes 8 70000 ++ [2#8, 0#8]
    (answer (take s 3#8 p (.probe p))).map (·.2.drop 20) =
      some [0xFB#8, 0xFF#8, 0xFF#8, 0xFF#8, 0x00#8, 0x00#8, 0x00#8, 0x80#8] := by decide +kernel

/-- R14, R194: code 4 is 4 ms. -/
theorem test_acqset : (take calm 4#8 [4#8] (.acqset .addressed [4#8])).interval = .four := by decide +kernel

/-- R15: refused BUSY while a port is not OFF. -/
theorem test_acqset_busy :
    let t := take (withPort calm 3 { Port.reset with state := .fault }) 4#8 [4#8] (.acqset .addressed [4#8])
    t.interval = .two ∧ answer t = some (.busy, []) := by decide +kernel

/-- R24: LNACT in OFF enters WAKING with the wake timer running. -/
theorem test_lnact :
    let t := take calm 5#8 [2#8] (.lnact .addressed [2#8])
    t.ports[2].state = .waking ∧ t.ports[2].wakeTimer = some 2000 ∧ t.ports[1].state = .off := by decide +kernel

/-- R24: port 4 is refused RANGE. -/
theorem test_lnact_range : answer (take calm 5#8 [4#8] (.lnact .addressed [4#8])) = some (.range, []) := by decide +kernel

/-- 2.9.3: LNDEACT drains a LOCKED port. -/
theorem test_lndeact :
    let t := take (withPort calm 2 { Port.reset with state := .locked, front := some 9 }) 6#8 [2#8] (.lndeact .addressed [2#8])
    t.ports[2].state = .draining ∧ t.ports[2].silenceTimer = some 20 ∧ t.ports[2].drainTimer = some 40 := by decide +kernel

/-- R37: LNCONF returns a PARKED port to OFF and is refused STATE elsewhere. -/
theorem test_lnconf :
    (take (withPort calm 2 { Port.reset with state := .parked }) 7#8 [2#8] (.lnconf .addressed [2#8])).ports[2].state = .off ∧
      answer (take calm 7#8 [2#8] (.lnconf .addressed [2#8])) = some (.state, []) := by decide +kernel

/-- R38: LNRESET clears the counts and keeps the front. -/
theorem test_lnreset :
    let x : Port := { Port.reset with state := .fault, slipCount := 5, retriesUsed := 2, front := some 9 }
    (take (withPort calm 3 x) 8#8 [3#8] (.lnreset .addressed [3#8])).ports[3] = { Port.reset with front := some 9 } := by
  decide +kernel

/-- R39, R194: codes 7, 15, 2, 5, 6 are 512 ms, 15, REPORT, 8,000 ms and UNLIMITED. -/
theorem test_lnpolicy :
    let p := [1#8, 7#8, 15#8, 2#8, 5#8, 6#8]
    (take calm 9#8 p (.lnpolicy .addressed p)).ports[1].policy =
      { slipLimit := 512, slipThreshold := 15, faultMode := .report, retryWait := 8000, retryLimit := none } := by
  decide +kernel

/-- 3.6.1: REFOPEN (2, 600) reports LOADING, 600, 0, 0. -/
theorem test_refopen :
    let p := refopenPayload 2 600
    answer (take calm 10#8 p (.refopen .addressed p)) = some (.ok, [2#8, 1#8, 0x58#8, 2#8, 0#8, 0#8, 0#8]) := by decide +kernel

/-- 3.6.1, shortened: slot 2 with two of three samples loaded. -/
def loading : State :=
  { calm with slots := calm.slots.set 2 { state := .loading, declared := some 3, samples := [1#16, 2#16], useCount := 0 } }

/-- 3.6.1: a resent block is refused ORDER and stores nothing; the next block is stored. -/
theorem test_refdata :
    let again := refdataPayload 2 1 [9#16]
    let next := refdataPayload 2 2 [-3#16]
    (answer (take loading 11#8 again (.refdata .addressed again))).map (·.1) = some .order ∧
      (take loading 11#8 next (.refdata .addressed next)).slots[2].samples = [1#16, 2#16, -3#16] := by decide +kernel

/-- 3.6.1: a REFCLOSE before the last sample is refused SHORT. -/
theorem test_refclose_short :
    (answer (take loading 12#8 [2#8] (.refclose .addressed [2#8]))).map (·.1) = some .short := by decide +kernel

/-- R49: REFCLEAR empties a slot, and is refused BUSY while the slot is in use. -/
theorem test_refclear :
    (take loading 13#8 [2#8] (.refclear .addressed [2#8])).slots[2] = RefSlot.reset ∧
      (let s := { calm with slots := calm.slots.set 1 { state := .ready, declared := some 1, samples := [1#16], useCount := 1 } }
       (answer (take s 13#8 [1#8] (.refclear .addressed [1#8]))).map (·.1)) = some .busy := by decide +kernel

/-- A SWANN of the small stack: tag 8, VP 9, number 2, pilot channel 5 with shift 0. -/
def announcement : Announcement :=
  { tag := 8, vp := 9, number := 2, start := 1000, length := 256, reference := .pilot 5 0 }

/-- R57: the window end is 1000 + 256 + 64 − 2; R59: an UNMAPPED pilot channel is refused NOREF. -/
theorem test_swann :
    let s := { opened with channels := opened.channels.set 5 { ChannelEntry.reset with state := .dead } }
    let p := swannPayload announcement
    let t := take s 14#8 p (.swann .addressed p)
    (t.sweeps.map fun e => (e.tag, e.windowEnd, e.state)) = [(8, 1318, .ready)] ∧
      (t.stackTable.map (·.map)) = [[.unshot, .announced 8]] ∧
      answer (take opened 14#8 p (.swann .addressed p)) = some (.noRef, []) := by decide +kernel

/-- R76, R131: SWCANCEL removes the entry, opens its map entry again and posts SWABORT. -/
theorem test_swcancel :
    let t := take (listed entry) 15#8 [7#8, 0#8] (.swcancel .addressed [7#8, 0#8])
    t.sweeps = [] ∧ (t.stackTable.map (·.map)) = [[.unshot, .unshot]] ∧ posted t = [.swAbort 7 9 1 .cancelled] := by
  decide +kernel

/-- R80, R195: one item of 17 bytes, the lane of none FFh. -/
theorem test_swlist :
    answer (take (listed entry) 16#8 [] (.swlist [])) =
      some (.ok, [1#8, 7#8, 0#8, 9#8, 0#8, 0#8, 0#8, 1#8, 0xE8#8, 3#8, 0#8, 0#8, 0#8, 0#8, 0#8, 0#8, 0#8, 0xFF#8]) := by
  decide +kernel

/-- R102: a code outside its column is refused RANGE and answered with the policy in force. -/
theorem test_qcpolicy_range :
    let p := [8#8, 1#8, 4#8, 1#8, 2#8, 3#8, 0#8, 3#8, 0#8]
    let t := take calm 17#8 p (.qcpolicy .addressed p)
    t.qcPolicy = QcPolicy.reset ∧ answer t = some (.range, [3#8, 1#8, 4#8, 1#8, 2#8, 3#8, 0#8, 3#8, 0#8]) := by decide +kernel

/-- 6.7.1: verdict NOTE stores the record and posts QCNOTE (PHASE DISTORTION). -/
theorem test_swqc_note :
    let p := swqcPayload 7 95 310 700
    let t := take (listed entry) 18#8 p (.swqc .addressed p)
    (t.sweeps.map (·.qc)) = [some { phase := 95, distortion := 310, force := 700, verdict := .note }] ∧
      posted t = [.qcNote 7 ⟨true, true, false⟩] ∧ answer t = some (.ok, [1#8, 3#8, 0#8]) := by decide +kernel

/-- R115: verdict RETRY with a retry left makes the map entry RETRY and posts SWABORT, then RESWEEP. -/
theorem test_swqc_retry :
    let p := swqcPayload 7 40 100 580
    let t := take (listed entry) 18#8 p (.swqc .addressed p)
    t.sweeps = [] ∧ (t.stackTable.map fun k => (k.map, k.retriesUsed)) = [([.retry 7, .unshot], 1)] ∧
      posted t = [.swAbort 7 9 1 .rejected, .resweep 9 1 0] := by decide +kernel

/-- R122: the level floor DEFAULT, FFh, gives 8. -/
theorem test_stkopen :
    let p := stkopenPayload { settings with floor := 255 }
    (take calm 19#8 p (.stkopen .addressed p)).stackTable.map (·.settings) = [settings] := by decide +kernel

/-- R134, R137: a stack without listed sweeps that is closed asks for space in the same event. -/
theorem test_stkclose :
    let t := take opened 20#8 (leBytes 4 9) (.stkclose .addressed (leBytes 4 9))
    (t.stackTable.map fun k => (k.state, k.notShot)) = [(.finalizing, some 2)] ∧ t.oq.reserved = 64 := by decide +kernel

/-- R79, R140: STKDROP discards the listed sweeps and removes the stack. -/
theorem test_stkdrop :
    let t := take (listed entry) 21#8 (leBytes 4 9) (.stkdrop .addressed (leBytes 4 9))
    t.stackTable = [] ∧ t.sweeps = [] ∧ posted t = [.swAbort 7 9 1 .discarded] := by decide +kernel

/-- R142, R195: the counts, the earliest start of none and the map items of an OPEN stack. -/
theorem test_stkinfo :
    (answer (take (listed entry) 22#8 (leBytes 4 9) (.stkinfo (leBytes 4 9)))).map (·.2.drop 15) =
      some ([0#8, 0#8, 0#8, 0xFF#8, 1#8] ++ List.replicate 8 0xFF#8 ++ [1#8, 7#8, 0#8, 0xFF#8, 0#8, 0#8, 0#8, 0xFF#8]) := by
  decide +kernel

/-- A record of five bytes, as if it were a small one, with the read position at 3. -/
def queued : State :=
  { calm with
    oq := { calm.oq with
      records := [{ kind := .stack, number := 4, size := 5, content := [1#8, 2#8, 3#8, 4#8, 5#8] }], readPosition := 3 } }

/-- R159, R160: the last block of the head record, with its flag. -/
theorem test_oqfetch :
    answer (take queued 23#8 [] (.oqfetch [])) =
      some (.ok, [4#8, 0#8, 0#8, 0#8, 0#8, 3#8, 0#8, 0#8, 0#8, 2#8, 0#8, 1#8, 4#8, 5#8]) := by decide +kernel

/-- R161: at the record's end the record is removed; an empty queue is refused EMPTY. -/
theorem test_oqrel :
    (take queued 24#8 [] (.oqrel [])).oq.records = [] ∧ answer (take calm 24#8 [] (.oqrel [])) = some (.empty, []) := by
  decide +kernel

/-- R162: OQSIZE sets the pending block size alone. -/
theorem test_oqsize :
    let t := take calm 25#8 [3#8] (.oqsize .addressed [3#8])
    t.oq.effectiveBlock = 4096 ∧ t.oq.pendingBlock = 8192 ∧ answer t = some (.ok, [2#8, 3#8]) := by decide +kernel

/-- 9.7: the STATUS answer is 95 characters long, 7 of them outside its payload. -/
theorem test_status : ((answer (take calm 26#8 [] (.status []))).map (·.2.length)) = some 88 := by decide +kernel

/-- R178: IDENT of the part at unit address 1. -/
theorem test_ident :
    answer (take calm 27#8 [] (.ident [])) =
      some (.ok, [0xE0#8, 1#8, 2#8, 1#8, 0xE0#8, 1#8, 4#8, 4#8, 8#8, 8#8, 32#8, 0#8, 0#8, 1#8, 0#8, 0#8, 0#8, 0#8, 4#8]) := by
  decide +kernel

/-- R179: an addressed RSTFULL resets the part at its answer completion, not before. -/
theorem test_rstfull :
    let t := take queued 28#8 [] (.rstfull .addressed [])
    t.oq.records ≠ [] ∧ (after .answerCompletion t).oq.records = [] ∧
      (after .answerCompletion t).cmd.initInterval = true := by decide +kernel

/-- R180: RSTENG empties the output queue and the stack table and answers OK. -/
theorem test_rsteng :
    let t := take { queued with stackTable := [Stack.new settings] } 29#8 [] (.rsteng .addressed [])
    t.oq.records = [] ∧ t.stackTable = [] ∧ answer t = some (.ok, []) := by decide +kernel

/-- 10.8: SWMERGED then LNSLIP, as the list stands after two posts. -/
def noticed : State := State.post (State.post calm (.swMerged 81 9 1)) (.lnSlip 2 1)

/-- 10.8: SWMERGED is masked and LNSLIP is not, so the line is active; NTREAD takes the oldest. -/
theorem test_ntread :
    let t := take noticed 30#8 [] (.ntread [])
    (State.post calm (.swMerged 81 9 1)).attention = false ∧ noticed.attention = true ∧ posted t = [.lnSlip 2 1] ∧
      (answer t).map (·.2.take 5) = some [0#8, 1#8, 0#8, 6#8, 15#8] := by decide +kernel

/-- 10.8: masking LINE releases the line, and the answer counts the unmasked notices. -/
theorem test_ntmask :
    let t := take noticed 31#8 [65#8] (.ntmask .addressed [65#8])
    t.attention = false ∧ answer t = some (.ok, [65#8, 0#8]) ∧
      answer (take noticed 31#8 [64#8] (.ntmask .addressed [64#8])) = some (.ok, [64#8, 1#8]) := by decide +kernel

/-- R173: a kind of 32 is refused UNKNOWN. -/
theorem test_unknown : answer (take calm 32#8 [] (.unknownRequest .addressed 32#8 [])) = some (.unknown, []) := by decide +kernel

/-- R173: a payload of another length is refused BADLEN before its fields are read. -/
theorem test_badlen : answer (take calm 5#8 [0#8, 0#8] (.lnact .addressed [0#8, 0#8])) = some (.badLen, []) := by decide +kernel

/-- R167: the own address, the address of all parts and another address. -/
theorem test_address :
    (after (.addressCharacter 1#8) calm).cmd.selection = .selectedOwn ∧
      (after (.addressCharacter 63#8) calm).cmd.selection = .selectedAll ∧
      (after (.addressCharacter 2#8) (after (.addressCharacter 1#8) calm)).cmd.selection = .deselected := by decide +kernel

/-- R165: a character error deselects. -/
theorem test_character_error :
    (after .characterError (after (.addressCharacter 1#8) calm)).cmd.selection = .deselected := by decide +kernel

/-- R168: a length of 1,026 deselects the part. -/
theorem test_inconsistent_length :
    (after (.inconsistentLength 2#8 4#8) (after (.addressCharacter 1#8) calm)).cmd.selection = .deselected := by decide +kernel

/-- R168 to R171: a good frame joins the input queue; one with a bad check is discarded silently. -/
theorem test_request_frame :
    let s := after (.addressCharacter 1#8) calm
    (after (.requestFrame (requestChars 26#8 [])) s).cmd.inputQueue = [{ kind := 26#8, payload := [], ak := .addressed }] ∧
      (let t := after (.requestFrame [1#8, 0#8, 26#8, 0#8, 0#8]) s
       t.cmd.inputQueue = [] ∧ posted t = [] ∧ t.cmd.selection = .deselected) := by decide +kernel

/-- 9.7: a broadcast STATUS is discarded with CMDBADCAST (STATUS, DISCARDED). -/
theorem test_broadcast_status :
    posted (after (.requestFrame (requestChars 26#8 [])) (after (.addressCharacter 63#8) calm)) =
      [.cmdBadCast 26#8 none] := by decide +kernel

/-- R174: the completion leaves the uplink QUIET. -/
theorem test_answer_completion :
    (after .answerCompletion (take calm 26#8 [] (.status []))).cmd.uplink = .quiet := by decide +kernel

/-- R166, R181: straps of 63 give no unit address; the interval runs. -/
theorem test_power_on :
    (after (.powerOnReset 63#6) queued).cmd.unitAddress = none ∧ (after (.powerOnReset 62#6) queued).cmd.unitAddress = some 62 ∧
      (after (.powerOnReset 62#6) queued).cmd.initInterval = true := by decide +kernel

/-- R182: characters are discarded in the interval and heard after its end. -/
theorem test_interval :
    (after (.addressCharacter 1#8) State.reset).cmd.selection = .deselected ∧
      (after (.addressCharacter 1#8) (after .initIntervalEnd State.reset)).cmd.selection = .selectedOwn := by decide +kernel

/-- 2.9.1: port 0 LOCKED at 500,001 with slip count 2 and threshold 3. -/
def line : State :=
  withPort calm 0
    { Port.reset with
      state := .locked, slipCount := 2, front := some 500001, absenceTimer := some 8
      policy := { LinePolicy.reset with slipThreshold := 3 } }

/-- 2.9.1: the frame 500,004 is written, counts the third slip and runs fault handling: RETRYWAIT for 1,000 ms. -/
theorem test_line_frame :
    let t := after (.lineFrame 0 (lineBytes 500004 [1#24])) line
    t.ports[0].state = .retryWait ∧ t.ports[0].front = some 500004 ∧ t.ports[0].retryTimer = some 1000 ∧
      posted t = [.lnSlip 0 3, .lnFault 0 .slipCount (.retrying 1)] := by decide +kernel

/-- 2.9.1: two consecutive frames above the front lock a WAKING port, and the second is written. -/
theorem test_line_lock :
    let s := withPort calm 0 { Port.reset with state := .waking, front := some 500004, wakeTimer := some 2000 }
    let t := after (.lineFrame 0 (lineBytes 500513 [2#24])) (after (.lineFrame 0 (lineBytes 500512 [1#24])) s)
    t.ports[0].state = .locked ∧ t.ports[0].front = some 500513 ∧ posted t = [.lnLock 0 .wake] ∧
      t.sample 0 500512 = none ∧ t.sample 0 500513 = some 2#24 := by decide +kernel

/-- 2.9.2: port 3 of the cut line, LOCKED, with retry limit 2. -/
def cut (x : Port) : State := withPort calm 3 { x with policy := { LinePolicy.reset with retryLimit := some 2 } }

/-- 2.9.2: frame absence enters SLIPPED with slip count 1. -/
theorem test_frame_absence :
    let t := after (.frameAbsence 3) (cut { Port.reset with state := .locked, absenceTimer := some 8, front := some 9 })
    t.ports[3].state = .slipped ∧ t.ports[3].slipTimer = some 64 ∧ posted t = [.lnSlip 3 1] := by decide +kernel

/-- 2.9.2: the slip timer's expiry with 0 retries used enters RETRYWAIT, RETRYING 1. -/
theorem test_slip_expiry :
    let t := after (.slipTimerExpiry 3) (cut { Port.reset with state := .slipped, slipTimer := some 64, front := some 9 })
    t.ports[3].state = .retryWait ∧ posted t = [.lnFault 3 .slipTime (.retrying 1)] := by decide +kernel

/-- 2.9.2: the wake timer's expiry with 2 retries used latches the fault. -/
theorem test_wake_expiry :
    let t := after (.wakeTimerExpiry 3) (cut { Port.reset with state := .waking, wakeTimer := some 2000, retriesUsed := 2 })
    t.ports[3].state = .fault ∧ posted t = [.lnFault 3 .noWake .latched] := by decide +kernel

/-- 2.9.2: the retry timer's expiry wakes the port, retries used kept, no notice. -/
theorem test_retry_expiry :
    let t := after (.retryTimerExpiry 3)
      (cut { Port.reset with state := .retryWait, retryTimer := some 1000, retriesUsed := 1, slipCount := 1 })
    t.ports[3].state = .waking ∧ t.ports[3].retriesUsed = 1 ∧ t.ports[3].slipCount = 0 ∧ posted t = [] := by decide +kernel

/-- 2.9.3: either drain timer parks the port and posts LNPARK. -/
theorem test_drain_expiries :
    let s := withPort calm 2 { Port.reset with state := .draining, silenceTimer := some 20, drainTimer := some 40 }
    (after (.drainSilenceTimerExpiry 2) s).ports[2] = { Port.reset with state := .parked } ∧
      (after (.drainLimitTimerExpiry 2) s).ports[2] = { Port.reset with state := .parked } ∧
      posted (after (.drainLimitTimerExpiry 2) s) = [.lnPark 2] := by decide +kernel

/-- 5.8.4: of three READY entries the first announced with the smallest start goes to the lowest IDLE lane. -/
theorem test_grant :
    let ready (tag start : Nat) : SweepEntry :=
      { entry with tag := tag, start := start, reference := .slot 0, state := .ready }
    let s := { opened with sweeps := [ready 14 2000000, ready 12 1990000, ready 13 1990000] }
    let busyLane : Lane := { Lane.reset with state := .qcWait, held := some 11 }
    let t := after .grant { s with lanes := s.lanes.set 0 busyLane }
    (t.sweeps.map fun e => (e.tag, e.lane)) = [(14, none), (12, some 1), (13, none)] ∧ t.lanes[1].held = some 12 := by
  decide +kernel

/-- R68: a pilot sample that is absent at the grant aborts the entry NOPILOT and leaves the lane IDLE. -/
theorem test_grant_nopilot :
    let t := after .grant (listed { entry with state := .ready })
    t.sweeps = [] ∧ t.lanes[0].state = .idle ∧ posted t = [.swAbort 7 9 1 .noPilot] := by decide +kernel

/-- R70: without a required report a completed job merges its sweep. -/
theorem test_lane_completion :
    let t := after (.laneCompletion 0) (laned { entry with state := .correlating } .correlating)
    t.sweeps = [] ∧ t.lanes[0].state = .idle ∧ (t.stackTable.map fun k => (k.map, k.merged, k.earliest)) =
      [([.merged 7, .unshot], 1, some 1000)] ∧ posted t = [.swMerged 7 9 1] := by decide +kernel

/-- R70, R71: with a required report and none stored it waits, its timer started with the limit of the policy. -/
theorem test_lane_completion_waits :
    let s := laned { entry with state := .correlating } .correlating
    let t := after (.laneCompletion 0) { s with qcPolicy := { s.qcPolicy with required := true } }
    (t.sweeps.map fun e => (e.state, e.qcTimer)) = [(.qcWait, some 4000)] ∧ t.lanes[0].state = .qcWait := by decide +kernel

/-- R112: the timeout action MERGE merges the waiting sweep. -/
theorem test_qc_wait_expiry :
    let t := after (.qcWaitExpiry 7) (laned { entry with state := .qcWait, qcTimer := some 4000 } .qcWait)
    t.sweeps = [] ∧ posted t = [.swMerged 7 9 1] := by decide +kernel

/-- R146, R147, R155: the record takes number 1, into an empty list: OQREADY, then STKDONE. -/
theorem test_finalize :
    let s := take opened 20#8 (leBytes 4 9) (.stkclose .addressed (leBytes 4 9))
    let t := after (.finalizeCompletion 9) s
    (t.oq.records.map fun r => (r.kind, r.number, r.size, r.content.length)) = [(.stack, 1, 64, 64)] ∧ t.stackTable = [] ∧
      t.oq.reserved = 0 ∧ t.oq.nextNumber = 2 ∧ posted t = [.oqReady 1, .stkDone 9 1] := by decide +kernel

/-! ### Witnesses: states and operands that meet the hypotheses of the statements -/

/-- A request at the head of the queue of a quiet part is about to be taken. -/
theorem taking (s : State) (r : Request) (h1 : s.cmd.initInterval = false) (h2 : s.cmd.uplink = .quiet) :
    (asked s r).Taking r := ⟨h1, h2, rfl⟩

theorem witness_step : ({ calm with pending := [.grant] } : State).pending = [.grant] ∧ calm.pending = [] := ⟨rfl, rfl⟩

theorem witness_interval : State.reset.cmd.initInterval = true := rfl

theorem witness_answerCompletion :
    ∃ a, (take calm 26#8 [] (.status [])).cmd.uplink = .sending a false := ⟨_, rfl⟩

/-- The part at rest in its initialization interval, and commands that are neither a power-on reset nor the interval's end. -/
theorem witness_rest : State.reset.cmd.initInterval = true ∧ State.reset.AtRest ∧
    (∀ straps, Instr.addressCharacter 1#8 ≠ .powerOnReset straps) ∧ Instr.grant ≠ .initIntervalEnd :=
  ⟨rfl, ⟨by decide, by decide, rfl, rfl, rfl, rfl, rfl, rfl, rfl⟩, by simp, by simp⟩

theorem witness_resets (ak : AddressKind) (k : Byte) :
    (asked queued { kind := k, payload := [], ak := ak }).Taking { kind := k, payload := [], ak := ak } :=
  taking _ _ rfl rfl

theorem witness_resetAnswer :
    ∃ a, (take queued 28#8 [] (.rstfull .addressed [])).cmd.uplink = .sending a true := ⟨_, rfl⟩

/-! A state in which every law has something to say: port 0 LOCKED with two frames in its ring, slot 0 READY and in use, two
listed sweeps, one of them in QCWAIT, four stacks FINALIZING, whose reservations leave no space for a HELD one. -/

/-- Port 0 of the busy part. -/
def busyPort : Port :=
  { Port.reset with
    state := .locked, absenceTimer := some 8, front := some 70000
    ring := [(4463, { tag := 69999, samples := [3#24] }), (4464, { tag := 70000, samples := [1#24, 2#24] })] }

/-- The capturing sweep of the busy part. -/
def busyCapture : SweepEntry :=
  { entry with reference := .slot 0, start := 69900, windowEnd := 70218, state := .capturing }

/-- The waiting sweep of the busy part. -/
def busyWait : SweepEntry :=
  { entry with tag := 8, number := 2, state := .qcWait, lane := some 0, qcTimer := some 4000 }

/-- A completed stack of the busy part: all 480 channels, Ll = 8,192, a record of 15,736,384 bytes (8.8). -/
def busyComplete (vp : Nat) (st : StackState) : Stack :=
  { Stack.new { settings with vp := vp, listen := 8192 } with
    state := st, map := [.abandoned 1 .overrun, .abandoned 2 .noPilot], abandoned := 2, notShot := some 0
    channelList := (List.finRange 480).map fun c => { channel := c, state := .live } }

/-- The OPEN stack of the busy part. -/
def busyOpened : Stack := { Stack.new settings with map := [.announced 7, .announced 8] }

/-- The busy part, a grant waiting in its queue. -/
def busy : State :=
  { calm with
    ports := calm.ports.set 0 busyPort
    slots := calm.slots.set 0 { state := .ready, declared := some 256, samples := List.replicate 256 1#16, useCount := 1 }
    sweeps := [busyCapture, busyWait]
    lanes := calm.lanes.set 0
      { state := .qcWait, held := some 8, params := some (jobParams busyWait settings), snapshot := [], reference := []
        clipCount := 0, window := [], result := [] }
    stackTable :=
      busyOpened :: busyComplete 14 .held :: [10, 11, 12, 13].map fun vp => busyComplete vp .finalizing
    oq :=
      { calm.oq with
        records := [{ kind := .stack, number := 4294967295, size := 2, content := [0#8, 0#8] }]
        reservations := [10, 11, 12, 13].map fun vp => { vp := vp, bytes := 15736384 }
        heldOrder := [14], nextNumber := 1 }
    pending := [.grant] }

theorem witness_busy_bounded : busy.Bounded :=
  ⟨by decide, by decide, by decide, by decide, by decide⟩

theorem witness_busy_rings : busy.RingsLawful := by
  intro p
  by_cases h : p = 0
  · subst h
    refine ⟨by decide +kernel, ?_, ?_⟩
    · intro c hc
      have : c ∈ [((4463, { tag := 69999, samples := [3#24] }) : Nat × RingCell),
        (4464, { tag := 70000, samples := [1#24, 2#24] })] := hc
      refine ⟨70000, rfl, ?_⟩
      simp only [List.mem_cons, List.not_mem_nil, or_false] at this
      rcases this with rfl | rfl <;> decide
    · rintro f hf
      have : (70000 : Nat) = f := Option.some.inj hf
      subst this; decide
  · have : busy.ports[p] = Port.reset := by
      revert h; revert p; decide +kernel
    rw [this]
    exact ⟨rfl, by simp [Port.reset], by simp [Port.reset]⟩

theorem witness_busy_ports : busy.PortsLawful := by
  intro p
  have : busy.ports[p] = busyPort ∨ busy.ports[p] = Port.reset := by revert p; decide +kernel
  rcases this with h | h <;> rw [h] <;> constructor <;> decide

theorem witness_busy_rests : busy.RestsInInterval := by intro h; cases h

theorem witness_busy_tags : busy.TagsDistinct := ⟨by decide, by decide⟩

theorem witness_busy_slots : busy.SlotsLawful := by
  have hs : ∀ i : Fin 8, i ≠ 0 → busy.slots[i] = RefSlot.reset := by decide +kernel
  have h0 : busy.slots[(0 : Fin 8)] =
      { state := .ready, declared := some 256, samples := List.replicate 256 1#16, useCount := 1 } := rfl
  refine ⟨?_, by decide +kernel, ?_, ?_⟩
  · intro i
    by_cases h : i = 0
    · subst h; rw [h0]; exact ⟨256, rfl, by decide, by decide, List.length_replicate⟩
    · rw [hs i h]; exact ⟨rfl, rfl⟩
  · decide +kernel
  · decide +kernel

theorem mem_busy {e : SweepEntry} (h : e ∈ busy.sweeps) : e = busyCapture ∨ e = busyWait := by
  have : e ∈ [busyCapture, busyWait] := h
  simpa using this

theorem witness_busy_lanes : busy.LanesLawful := by
  refine ⟨?_, ?_, by decide +kernel, by decide +kernel, by decide +kernel⟩
  · intro e he
    rcases mem_busy he with rfl | rfl
    · rfl
    · exact ⟨rfl, rfl⟩
  · intro l
    by_cases h : l = 0
    · subst h; exact ⟨busyWait, List.mem_cons_of_mem _ List.mem_cons_self, rfl, rfl⟩
    · have : busy.lanes[l] = Lane.reset := by revert h; revert l; decide +kernel
      rw [this]; rfl

theorem mem_busyStacks {k : Stack} (h : k ∈ busy.stackTable) :
    k = busyOpened ∨ k = busyComplete 14 .held ∨ ∃ vp ∈ [10, 11, 12, 13], k = busyComplete vp .finalizing := by
  have h' : k ∈ busyOpened :: busyComplete 14 .held :: [10, 11, 12, 13].map fun vp => busyComplete vp .finalizing := h
  simp only [List.mem_cons, List.mem_map] at h'
  rcases h' with h | h | ⟨vp, hv, rfl⟩
  · exact .inl h
  · exact .inr (.inl h)
  · exact .inr (.inr ⟨vp, by simpa using hv, rfl⟩)

theorem busyComplete_mem {vp : Nat} (h : vp ∈ [10, 11, 12, 13]) : busyComplete vp .finalizing ∈ busy.stackTable :=
  List.mem_cons_of_mem _ (List.mem_cons_of_mem _ (List.mem_map.mpr ⟨vp, h, rfl⟩))

theorem busyComplete_size (vp : Nat) (st : StackState) : (busyComplete vp st).recordSize = 15736384 := by
  show 64 + ((List.finRange 480).map _).length * (16 + 4 * 8192) = _
  rw [List.length_map, List.length_finRange]

theorem witness_busy_maps : busy.MapsLawful := by
  have complete : ∀ vp st, (busyComplete vp st).MapLaw := fun vp st => ⟨rfl, rfl, rfl, Nat.zero_le _⟩
  have silent : ∀ vp st n t, 10 ≤ vp → ((busyComplete vp st).map[n]? = some (.announced t) ↔
      ∃ e ∈ busy.sweeps, e.tag = t ∧ e.vp = (busyComplete vp st).settings.vp ∧ e.number = n + 1) := by
    intro vp st n t hv
    constructor
    · intro h
      have h : [MapEntry.abandoned 1 .overrun, .abandoned 2 .noPilot][n]? = some (.announced t) := h
      rcases n with _ | _ | n <;> simp at h
    · rintro ⟨e, he, _, h2, _⟩
      have h2 : e.vp = vp := h2
      have : e.vp = 9 := by rcases mem_busy he with rfl | rfl <;> rfl
      omega
  refine ⟨?_, ?_, ?_, ?_, ?_⟩
  · intro k h
    rcases mem_busyStacks h with rfl | rfl | ⟨vp, _, rfl⟩
    · exact ⟨rfl, rfl, rfl, Nat.zero_le _⟩
    · exact complete _ _
    · exact complete _ _
  · intro k h n t
    rcases mem_busyStacks h with rfl | rfl | ⟨vp, hv, rfl⟩
    · have hs : busy.sweeps = [busyCapture, busyWait] := rfl
      rw [hs]
      show [MapEntry.announced 7, .announced 8][n]? = _ ↔
        ∃ e ∈ [busyCapture, busyWait], e.tag = t ∧ e.vp = 9 ∧ e.number = n + 1
      rcases n with _ | _ | n <;> simp [busyCapture, busyWait, entry, eq_comm]
    · exact silent 14 .held n t (by decide)
    · exact silent vp .finalizing n t (by simp at hv; omega)
  · intro e he
    refine ⟨?_, busyOpened, List.mem_cons_self, ?_, .inl rfl⟩
    · rcases mem_busy he with rfl | rfl <;> decide
    · rcases mem_busy he with rfl | rfl <;> rfl
  · intro k h h'
    rcases mem_busyStacks h with rfl | rfl | ⟨vp, hv, rfl⟩
    · decide
    · cases h'
    · cases h'
  · intro k h h'
    rcases mem_busyStacks h with rfl | rfl | ⟨vp, hv, rfl⟩ <;> cases h'

theorem witness_busy_output : busy.OutputLawful := by
  have hh : busy.oq.heldOrder = [14] := rfl
  refine ⟨by decide, ?_, ?_, by decide, ?_, ?_⟩
  · intro k h h'
    rcases mem_busyStacks h with rfl | rfl | ⟨vp, hv, rfl⟩
    · cases h'
    · cases h'
    · rw [busyComplete_size]
      simp only [List.mem_cons, List.not_mem_nil, or_false] at hv
      rcases hv with rfl | rfl | rfl | rfl <;> rfl
  · intro r hr
    have : r ∈ [10, 11, 12, 13].map fun vp => ({ vp := vp, bytes := 15736384 } : Reservation) := hr
    obtain ⟨vp, hv, rfl⟩ := List.mem_map.mp this
    exact ⟨_, busyComplete_mem hv, rfl, rfl⟩
  · intro vp
    rw [hh, List.mem_singleton]
    constructor
    · rintro rfl
      exact ⟨busyComplete 14 .held, List.mem_cons_of_mem _ List.mem_cons_self, rfl, rfl⟩
    · rintro ⟨k, h, h1, h2⟩
      rcases mem_busyStacks h with rfl | rfl | ⟨v, hv, rfl⟩
      · cases h2
      · exact h1.symm
      · cases h2
  · intro vp rest h
    rw [hh] at h
    cases h
    refine ⟨busyComplete 14 .held, List.mem_cons_of_mem _ List.mem_cons_self, rfl, ?_⟩
    rw [busyComplete_size]; decide

theorem witness_busy_numbers : busy.oq.Numbered := by
  have hr : busy.oq.records = [{ kind := .stack, number := 4294967295, size := 2, content := [0#8, 0#8] }] := rfl
  refine ⟨by decide, ?_, ?_⟩
  · intro i r r' _ h2
    rw [hr] at h2
    simp at h2
  · intro r h
    rw [hr] at h
    cases h; rfl

theorem initial_lawful (k : StackSettings) (x : Stack) (hs : x.settings = k) : (Accumulators.initial k).Lawful x := by
  subst hs
  refine ⟨List.length_replicate, List.length_replicate, Nat.zero_le _, ?_, ?_, Nat.zero_le _⟩
  · intro n hn; rw [List.eq_of_mem_replicate hn]; exact Nat.zero_le _
  · intro d hd; rw [List.eq_of_mem_replicate hd]; exact ⟨le_refl _, by simp [Accumulators.initial]⟩

theorem settings_lawful : settings.Lawful := by constructor <;> decide

theorem jobResult_empty (l : Lane) (h : l.snapshot = []) : [] = l.jobResult := by
  unfold Lane.jobResult liveChannels
  rw [h, List.zip_nil_right]
  cases l.params <;> rfl

theorem witness_busy_work : busy.WorkLawful := by
  have lawful : ∀ vp, 1 ≤ vp → vp ≤ 4294967295 → ({ settings with vp := vp, listen := 8192 } : StackSettings).Lawful :=
    fun vp h1 h2 => ⟨⟨h1, h2⟩, settings_lawful.expected, ⟨show 64 ≤ 8192 by decide, le_refl _⟩, settings_lawful.shift,
      settings_lawful.divWindow, settings_lawful.floor, settings_lawful.retryLimit⟩
  refine ⟨?_, ?_, ?_, ?_, ?_⟩
  · intro k h
    rcases mem_busyStacks h with rfl | rfl | ⟨vp, hv, rfl⟩
    · exact settings_lawful
    · exact lawful 14 (by decide) (by decide)
    · simp only [List.mem_cons, List.not_mem_nil, or_false] at hv
      exact lawful vp (by omega) (by omega)
  · intro k h c
    rcases mem_busyStacks h with rfl | rfl | ⟨vp, hv, rfl⟩
    · show (Vector.replicate 480 (Accumulators.initial settings))[c.val].Lawful _
      rw [Vector.getElem_replicate]; exact initial_lawful _ _ rfl
    · show (Vector.replicate 480 (Accumulators.initial { settings with vp := 14, listen := 8192 }))[c.val].Lawful _
      rw [Vector.getElem_replicate]; exact initial_lawful _ _ rfl
    · show (Vector.replicate 480 (Accumulators.initial { settings with vp := vp, listen := 8192 }))[c.val].Lawful _
      rw [Vector.getElem_replicate]; exact initial_lawful _ _ rfl
  · intro e he k h hv
    have he9 : e.vp = 9 := by rcases mem_busy he with rfl | rfl <;> rfl
    rw [he9] at hv
    rcases mem_busyStacks h with rfl | rfl | ⟨vp, h', rfl⟩
    · rcases mem_busy he with rfl | rfl <;> rfl
    · cases hv
    · have hv : vp = 9 := hv
      subst hv; simp at h'
  · intro e he l hl
    rcases mem_busy he with rfl | rfl
    · cases hl
    · cases hl
      exact ⟨busyOpened, List.mem_cons_self, rfl, rfl, fun _ => jobResult_empty _ rfl⟩
  · intro r hr
    have : r ∈ [({ kind := .stack, number := 4294967295, size := 2, content := [0#8, 0#8] } : OutRecord)] := hr
    rw [List.mem_singleton] at this
    subst this; rfl

/-- The busy part meets every law, and a step of it answers a next state. -/
theorem witness_busy : busy.Lawful ∧ ∃ t, step busy = .next t :=
  ⟨⟨witness_busy_bounded, witness_busy_rings, witness_busy_ports, witness_busy_rests, witness_busy_tags, witness_busy_slots,
    witness_busy_lanes, witness_busy_maps, witness_busy_output, witness_busy_numbers, witness_busy_work⟩,
    State.grant { busy with pending := [] }, rfl⟩

theorem witness_presentSample : busy.RingsLawful ∧ busy.sample 0 69999 = some 3#24 ∧ busy.sample 1 70000 = some 2#24 :=
  ⟨witness_busy_rings, by decide +kernel, by decide +kernel⟩

/-- Any request can be the one about to be taken, addressed or broadcast. -/
theorem witness_taking (k : Byte) (p : List Byte) (ak : AddressKind) :
    (asked calm { kind := k, payload := p, ak := ak }).Taking { kind := k, payload := p, ak := ak } := taking _ _ rfl rfl

/-- An addressed LNACT for port 4, about to be taken, is answered RANGE. -/
theorem witness_refused :
    requestOf (.lnact .addressed [4#8]) = some { kind := 5#8, payload := [4#8], ak := .addressed } ∧
    ∃ t a b, exec (.lnact .addressed [4#8]) (asked calm { kind := 5#8, payload := [4#8], ak := .addressed }) = .next t ∧
      t.cmd.uplink = .sending a b ∧ a.result ≠ .ok := ⟨rfl, _, _, _, rfl, rfl, by decide⟩

/-- The same LNACT broadcast, and two requests whose refusal has a notice of its own. -/
theorem witness_refusedBroadcast :
    (requestOf (.lnact .broadcast [4#8]) = some { kind := 5#8, payload := [4#8], ak := .broadcast } ∧
      ∀ ak k p, Instr.lnact .broadcast [4#8] ≠ .unknownRequest ak k p) ∧
    (∃ t a b, exec (.swann .addressed (List.replicate 21 0#8))
        (asked calm { kind := 14#8, payload := List.replicate 21 0#8, ak := .addressed }) = .next t ∧
      t.cmd.uplink = .sending a b ∧ a.result = .range) ∧
    ∃ t a b, exec (.stkopen .addressed (List.replicate 14 0#8))
        (asked calm { kind := 19#8, payload := List.replicate 14 0#8, ak := .addressed }) = .next t ∧
      t.cmd.uplink = .sending a b ∧ a.result = .range :=
  ⟨⟨rfl, by simp⟩, ⟨_, _, _, rfl, rfl, by decide +kernel⟩, _, _, _, rfl, rfl, by decide +kernel⟩

/-- The kinds at the bounds, and unsuitable payloads of the first and the last kind. -/
theorem witness_unknownAndBadLength :
    ((0#8).toNat = 0 ∧ 32 ≤ (32#8).toNat ∧ 32 ≤ (255#8).toNat) ∧
    (requestOf (.chmap .addressed [0#8, 0#8]) = some { kind := 1#8, payload := [0#8, 0#8], ak := .addressed } ∧
      payloadSuits 1#8 [0#8, 0#8] = false ∧ ∀ ak k p, Instr.chmap .addressed [0#8, 0#8] ≠ .unknownRequest ak k p) ∧
    (requestOf (.ntmask .broadcast []) = some { kind := 31#8, payload := [], ak := .broadcast } ∧
      payloadSuits 31#8 [] = false ∧ ∀ ak k p, Instr.ntmask .broadcast [] ≠ .unknownRequest ak k p) :=
  ⟨by decide, ⟨rfl, by decide, by simp⟩, rfl, by decide, by simp⟩

theorem witness_probe :
    18446744073709551615 < 18446744073709551616 ∧ 1 ≤ 256 ∧ 256 ≤ 256 ∧
    (asked busy { kind := 3#8, payload := probePayload (0 : Fin 480).val 69999 2, ak := .addressed }).Taking
      { kind := 3#8, payload := probePayload (0 : Fin 480).val 69999 2, ak := .addressed } :=
  ⟨by decide, by decide, by decide, taking _ _ rfl rfl⟩

/-- PROBEs of a channel and of counts just beyond their ranges. -/
theorem witness_probeRefused :
    (probePayload 480 0 1).length = 12 ∧ 479 < field (probePayload 480 0 1) 0 2 ∧
    field (probePayload 479 0 0) 10 2 = 0 ∧ 256 < field (probePayload 479 0 257) 10 2 := by decide +kernel

/-- A stack found by a VP tag, at both bounds of the tag. -/
theorem witness_stackFound (vp : Nat) :
    ({ calm with stackTable := [Stack.new { settings with vp := vp }] } : State).findStack vp =
      some (Stack.new { settings with vp := vp }) := by
  show List.find? _ [_] = _
  rw [List.find?_cons_of_pos]
  simp [Stack.new]

theorem witness_stackTags : 1 ≤ 1 ∧ 1 < 4294967296 ∧ 1 ≤ 4294967295 ∧ 4294967295 < 4294967296 := by decide

/-- A CHMAP that ends at the last slot of port 3, and one of a single channel. -/
theorem witness_chmap :
    let d : ChannelEntry :=
      { station := 4294967295, line := 65535, component := .y, polarity := .reversed, state := .dead }
    calm.stackTable = [] ∧ 3 ≤ 3 ∧ 1 ≤ [d].length ∧ 119 + [d].length ≤ 120 ∧ 0 + (List.replicate 120 d).length ≤ 120 ∧
      ∀ x ∈ [d], x.station < 4294967296 ∧ x.line < 65536 :=
  ⟨rfl, by decide, by decide, by decide, by decide, by decide⟩

theorem witness_chstate : (1 ≤ 1 ∧ 479 + 1 ≤ 480) ∧ 1 ≤ 480 ∧ 0 + 480 ≤ 480 := by decide

/-- CHMAPs with each field or the run just beyond its range, with an attributes byte of each kind that names no codes, and one that a
stack in the table refuses. -/
theorem witness_chmapRefused :
    let item (a : Byte) : List Byte := List.replicate 6 0#8 ++ [a]
    let p (port first count : Byte) (a : Byte) : List Byte := [port, first, count] ++ item a
    (p 0#8 119#8 1#8 0#8).length = 3 + 7 * field (p 0#8 119#8 1#8 0#8) 2 1 ∧ 3 < field (p 4#8 0#8 1#8 0#8) 0 1 ∧
    119 < field (p 0#8 120#8 1#8 0#8) 1 1 ∧ [0#8, 0#8, 0#8].length = 3 + 7 * field [0#8, 0#8, 0#8] 2 1 ∧
    120 < field (p 0#8 119#8 2#8 0#8) 1 1 + field (p 0#8 119#8 2#8 0#8) 2 1 ∧
    (0 < field (p 0#8 0#8 1#8 3#8) 2 1 ∧ field (p 0#8 0#8 1#8 3#8) (9 + 7 * 0) 1 % 4 = 3) ∧
    24 ≤ field (p 0#8 0#8 1#8 24#8) (9 + 7 * 0) 1 ∧
    (field (p 3#8 119#8 1#8 22#8) (9 + 7 * 0) 1 % 4 ≠ 3 ∧ field (p 3#8 119#8 1#8 22#8) (9 + 7 * 0) 1 < 24) ∧
    opened.stackTable ≠ [] := by decide +kernel

/-- CHSTATEs with each field or the run just beyond its range. -/
theorem witness_chstateRefused :
    let p (first count : Nat) (code : Byte) : List Byte := leBytes 2 first ++ leBytes 2 count ++ [code]
    (p 480 1 0#8).length = 5 ∧ 479 < field (p 480 1 0#8) 0 2 ∧ field (p 0 0 0#8) 2 2 = 0 ∧ 480 < field (p 0 481 0#8) 2 2 ∧
    2 < field (p 0 1 3#8) 4 1 ∧ 480 < field (p 479 2 2#8) 0 2 + field (p 479 2 2#8) 2 2 := by decide +kernel

/-- Values at the ends of the columns of the four settings requests. -/
theorem witness_settings :
    ((∀ p : Fin 4, calm.ports[p].state = .off) ∧ calm.sweeps = []) ∧
    (512 ∈ slipLimitList ∧ 4 ∈ slipLimitList ∧ 15 ≤ 15 ∧ 8000 ∈ retryWaitList ∧ 250 ∈ retryWaitList ∧
      none ∈ retryLimitList ∧ some 1 ∈ retryLimitList) ∧
    (2 ∈ phaseLimitList ∧ 32 ∈ phaseLimitList ∧ 50 ∈ distortionLimitList ∧ 85 ∈ forceFloorList ∧ 30000 ∈ waitLimitList) ∧
    1024 ∈ blockSizeList ∧ 8192 ∈ blockSizeList :=
  ⟨⟨by decide +kernel, rfl⟩, by decide, by decide, by decide, by decide⟩

/-- Codes just beyond the columns of the four settings requests, and the two parts an ACQSET finds BUSY. -/
theorem witness_settingsRefused :
    (4 < (5#8).toNat ∧ (4#8).toNat ≤ 4 ∧ (withPort calm 3 { Port.reset with state := .parked }).ports[(3 : Fin 4)].state ≠ .off ∧
      (listed entry).sweeps ≠ []) ∧
    (let p : List Byte := [4#8, 8#8, 16#8, 3#8, 6#8, 7#8]
     p.length = 6 ∧ 3 < field p 0 1 ∧ 7 < field p 1 1 ∧ 15 < field p 2 1 ∧ 2 < field p 3 1 ∧ 5 < field p 4 1 ∧ 6 < field p 5 1) ∧
    (let p : List Byte := [8#8, 4#8, 7#8, 4#8, 8#8, 4#8, 2#8, 7#8, 3#8]
     p.length = 9 ∧ 7 < field p 0 1 ∧ 3 < field p 1 1 ∧ 6 < field p 2 1 ∧ 3 < field p 3 1 ∧ 7 < field p 4 1 ∧ 3 < field p 5 1 ∧
       1 < field p 6 1 ∧ 6 < field p 7 1 ∧ 2 < field p 8 1) ∧
    3 < (4#8).toNat := by decide +kernel

/-- A port in every activation state, asked by any of the line requests. -/
theorem witness_lineRequests (k : Byte) (ak : AddressKind) (p : Fin 4) (st : PortState) :
    (asked (withPort calm p { Port.reset with state := st }) { kind := k, payload := [byteOf p.val], ak := ak }).Taking
      { kind := k, payload := [byteOf p.val], ak := ak } ∧
    (withPort calm p { Port.reset with state := st }).ports[p].state = st := by
  refine ⟨taking _ _ rfl rfl, ?_⟩
  simp [withPort]

/-- The first port number beyond the four, asked by any of the line requests. -/
theorem witness_lineRefused (k : Byte) (ak : AddressKind) :
    3 < (4#8).toNat ∧ (asked calm { kind := k, payload := [4#8], ak := ak }).Taking { kind := k, payload := [4#8], ak := ak } :=
  ⟨by decide, taking _ _ rfl rfl⟩

/-- A frame of one slot with the largest index, and a body that is no frame. -/
theorem witness_frames :
    readLineFrame (lineBody 281474976710655 [1#24] ++ checkBytes (lineBody 281474976710655 [1#24])) =
        some { index := 281474976710655, samples := [1#24] } ∧
      readLineFrame [] = none := by decide +kernel

/-- The body of a valid frame. -/
def body (i : Nat) : List Byte := lineBody i [1#24] ++ checkBytes (lineBody i [1#24])

/-- Frames 9, 10, 11 and 12 for a port whose front is 10. -/
theorem witness_bodies :
    readLineFrame (body 9) = some { index := 9, samples := [1#24] } ∧
      readLineFrame (body 10) = some { index := 10, samples := [1#24] } ∧
      readLineFrame (body 11) = some { index := 11, samples := [1#24] } ∧
      readLineFrame (body 12) = some { index := 12, samples := [1#24] } := by decide +kernel

/-- A port of each state that reads frames, with front 10 and with none, with and without a candidate or a chain. -/
theorem witness_readingPorts (p : Fin 4) (st : PortState) (front candidate : Option Nat) (chain : Bool) :
    let s := withPort calm p
      { Port.reset with state := st, front := front, candidate := candidate, chain := chain, absenceTimer := some 8 }
    s.ports[p].state = st ∧ s.ports[p].front = front ∧ s.ports[p].candidate = candidate ∧ s.ports[p].chain = chain ∧
      s.ports[p].absenceTimer.isSome = true := by simp [withPort]

theorem witness_candidate :
    ((some 10).map (· + 1) = some 11) ∧ ((some 11).map (· + 1) ≠ some 11) ∧ ((none : Option Nat).map (· + 1) ≠ some 11) ∧
      (∃ g, some 10 = some g ∧ 10 ≤ g) ∧ (∀ g, some 10 = some g → g < 11) ∧
      (∀ g, (none : Option Nat) = some g → g < 0) := by
  refine ⟨rfl, by decide, by decide, ⟨10, rfl, by decide⟩, ?_, ?_⟩
  · intro g h; cases h; decide
  · intro g h; cases h

/-- The two expiries under each mode, with and without a retry left. -/
theorem witness_expiries (mode : FaultMode) (used : Nat) (limit : Option Nat) :
    let pol : LinePolicy := { LinePolicy.reset with faultMode := mode, retryLimit := limit }
    let w := withPort calm 0 { Port.reset with state := .waking, wakeTimer := some 2000, retriesUsed := used, policy := pol }
    let l := withPort calm 0 { Port.reset with state := .slipped, slipTimer := some 64, retriesUsed := used, policy := pol }
    (w.ports[0].state = .waking ∧ w.ports[0].wakeTimer.isSome = true ∧ w.ports[0].policy.faultMode = mode ∧
      w.ports[0].policy.retryLimit = limit ∧ w.ports[0].retriesUsed = used) ∧
    (l.ports[0].state = .slipped ∧ l.ports[0].slipTimer.isSome = true ∧ l.ports[0].policy.faultMode = mode ∧
      l.ports[0].policy.retryLimit = limit ∧ l.ports[0].retriesUsed = used) := by simp [withPort]

theorem witness_retriesLeft :
    (∀ n, some 3 = some n → 2 < n) ∧ (¬ ∀ n, some 3 = some n → 3 < n) ∧ (∀ n, (none : Option Nat) = some n → 65535 < n) := by
  refine ⟨?_, ?_, ?_⟩
  · intro n h; cases h; decide
  · intro h; exact absurd (h 3 rfl) (by decide)
  · intro n h; cases h

theorem witness_retryAndDrain (p : Fin 4) :
    let r := withPort calm p { Port.reset with state := .retryWait, retryTimer := some 1000 }
    let d := withPort calm p { Port.reset with state := .draining, silenceTimer := some 20, drainTimer := some 40 }
    (r.ports[p].state = .retryWait ∧ r.ports[p].retryTimer.isSome = true) ∧
    d.ports[p].state = .draining ∧ d.ports[p].silenceTimer.isSome = true ∧ d.ports[p].drainTimer.isSome = true := by
  simp [withPort]

/-- A slot in a given condition. -/
def withSlot (x : RefSlot) : State := { calm with slots := calm.slots.set 7 x }

/-- Each reference request about to be taken in a slot that admits it: EMPTY and READY unused, LOADING with one place left,
LOADING full. -/
theorem witness_references :
    (withSlot RefSlot.reset).slots[7].state = .empty ∧ (withSlot RefSlot.reset).slots[7].useCount = 0 ∧
    (let r := withSlot { state := .ready, declared := some 256, samples := List.replicate 256 0#16, useCount := 0 }
     r.slots[7].state = .ready ∧ r.slots[7].useCount = 0) ∧
    (let l := withSlot { state := .loading, declared := some 256, samples := List.replicate 255 0#16, useCount := 0 }
     l.slots[7].state = .loading ∧ l.slots[7].declared = some 256 ∧ l.slots[7].samples.length + [1#16].length ≤ 256 ∧
       256 ≤ 16384) ∧
    (let f := withSlot { state := .loading, declared := some 256, samples := List.replicate 256 0#16, useCount := 0 }
     f.slots[7].state = .loading ∧ f.slots[7].declared = some f.slots[7].samples.length) := by decide +kernel

/-- Slots that refuse a REFOPEN, a REFCLOSE and a REFCLEAR, lengths at the bounds, and requests for slot 8. -/
theorem witness_referencesRefused :
    (255 < 65536 ∧ 255 < 256) ∧ (16384 < 16385 ∧ 16385 < 65536) ∧
    (let r := withSlot { state := .ready, declared := some 256, samples := List.replicate 256 0#16, useCount := 1 }
     r.slots[7].state = .ready ∧ 0 < r.slots[7].useCount) ∧
    (let l := withSlot { state := .loading, declared := some 256, samples := List.replicate 255 0#16, useCount := 0 }
     l.slots[7].state = .loading ∧ l.slots[7].declared = some 256 ∧ l.slots[7].samples.length < 256) ∧
    (withSlot RefSlot.reset).slots[7].state = .empty ∧
    7 < field [8#8] 0 1 ∧ 7 < field (refopenPayload 8 256) 0 1 ∧ (refopenPayload 8 256).length = 3 ∧
    7 < field (refdataPayload 8 0 [1#16]) 0 1 ∧
    (refdataPayload 8 0 [1#16]).length = 5 + 2 * field (refdataPayload 8 0 [1#16]) 3 2 := by decide +kernel

/-- The four refusals of a REFDATA at the bounds of its fields. -/
theorem witness_refdataRefused :
    let l := withSlot { state := .loading, declared := some 256, samples := List.replicate 255 0#16, useCount := 0 }
    (¬ (16384 ≤ 16383 ∧ 1 ≤ 1 ∧ 1 ≤ 256)) ∧ (¬ (0 ≤ 16383 ∧ 1 ≤ 0 ∧ 0 ≤ 256)) ∧ (¬ (0 ≤ 16383 ∧ 1 ≤ 257 ∧ 257 ≤ 256)) ∧
    (16383 ≤ 16383 ∧ 1 ≤ 256 ∧ 256 ≤ 256) ∧ calm.slots[7].state ≠ .loading ∧ l.slots[7].state = .loading ∧
    254 ≠ l.slots[7].samples.length ∧ 255 = l.slots[7].samples.length ∧ l.slots[7].declared.getD 0 < 255 + 2 := by
  decide +kernel

/-- The small stack with channel 5 mapped, asked the announcement of the tests, which nothing refuses. -/
def announceable : State := { opened with channels := opened.channels.set 5 { ChannelEntry.reset with state := .dead } }

theorem witness_swann :
    announceable.findStack 9 = some (Stack.new settings) ∧
    swannRefusal (asked announceable { kind := 14#8, payload := swannPayload announcement, ak := .broadcast })
      (swannPayload announcement) = none ∧
    (announcement.tag < 65536 ∧ announcement.vp < 4294967296 ∧ announcement.number < 256 ∧
      announcement.start < 18446744073709551616 ∧ announcement.length < 65536) ∧
    ∀ c shift, announcement.reference = .pilot c shift → shift < 256 := by
  refine ⟨rfl, by decide +kernel, by decide, ?_⟩
  intro c shift h; cases h; decide

/-- An announcement of slot 0, for the other reference kind. -/
theorem witness_swann_slot :
    swannRefusal
      { opened with
        slots := opened.slots.set 0 { state := .ready, declared := some 256, samples := List.replicate 256 0#16, useCount := 0 } }
      (swannPayload { announcement with reference := .slot 0 }) = none := by decide +kernel

/-- Each result a SWANN can be refused with, in the order of R59. -/
theorem witness_swann_refused :
    let p := swannPayload announcement
    let full : State := { opened with sweeps := List.replicate 32 entry }
    (swannPayload announcement).length = 21 ∧
    swannRefusal opened (swannPayload { announcement with tag := 0 }) = some .range ∧ swannRefusal full p = some .full ∧
    swannRefusal (listed { entry with tag := 8 }) p = some .duplicate ∧ swannRefusal calm p = some .noStack ∧
    swannRefusal { opened with stackTable := [{ Stack.new settings with state := .closing }] } p = some .state ∧
    swannRefusal opened (swannPayload { announcement with number := 3 }) = some .range ∧
    swannRefusal (listed entry) (swannPayload { announcement with number := 1 }) = some .duplicate ∧
    swannRefusal opened p = some .noRef ∧
    swannRefusal (withPort announceable 0 { Port.reset with front := some 66536 }) p = some .tooOld ∧
    swannRefusal (withPort announceable 0 { Port.reset with front := some 0 })
      (swannPayload { announcement with start := 4194305 }) = some .future ∧
    swannRefusal
      { opened with slots := opened.slots.set 0 { state := .ready, declared := some 300, samples := [], useCount := 0 } }
      (swannPayload { announcement with reference := .slot 0 }) = some .mismatch := by decide +kernel

/-- Ports that have and have not reached an entry, and an entry an overrun test of its index strikes. -/
theorem witness_readiness :
    let at' (f : Nat) : Vector Port 4 := (withPort calm 0 { Port.reset with state := .locked, front := some f }).ports
    readiness (at' 1318) entry = .ready ∧ readiness (at' 1317) entry = .capturing ∧ readiness (at' 999) entry = .waiting ∧
    readiness (at' 1317) { entry with state := .capturing } = .capturing ∧
    readiness (at' 1318) { entry with state := .correlating } = .correlating ∧
    ((listed { entry with state := .capturing }).overrunTest 66536).sweeps = [] ∧
    ((listed { entry with state := .capturing }).overrunTest 66535).sweeps ≠ [] ∧
    (listed entry).ports[0].state = calm.ports[0].state ∧
    (withPort calm 0 { Port.reset with state := .waking }).ports[0].state ≠ calm.ports[0].state := by decide +kernel

theorem witness_overrun : (listed { entry with state := .capturing }).TagsDistinct ∧
    (laned { entry with state := .correlating } .correlating).TagsDistinct := by
  refine ⟨⟨?_, ?_⟩, ⟨?_, ?_⟩⟩ <;> decide

/-- An abort's stack, OPEN with and without a retry left and CLOSING, and reports of each verdict. -/
theorem witness_aborts :
    (listed entry).findStack entry.vp = some announcedStack ∧ announcedStack.state = .opened ∧
    announcedStack.retriesUsed < announcedStack.settings.retryLimit ∧
    ({ calm with stackTable := [{ announcedStack with retriesUsed := 1 }] } : State).findStack entry.vp =
      some { announcedStack with retriesUsed := 1 } ∧
    ({ calm with stackTable := [{ announcedStack with state := .closing }] } : State).findStack entry.vp =
      some { announcedStack with state := .closing } := ⟨rfl, rfl, by decide, rfl, rfl⟩

/-- The part with the tag of the small stack's first sweep merged. -/
def mergedOnce : State :=
  { calm with stackTable := [{ Stack.new settings with map := [.merged 7, .unshot], merged := 1 }] }

theorem witness_swcancel :
    (listed entry).findSweep 7 = some entry ∧
    ((∀ e ∈ mergedOnce.sweeps, e.tag ≠ 7) ∧ ∃ k ∈ mergedOnce.stackTable, MapEntry.merged 7 ∈ k.map) ∧
    (∀ e ∈ calm.sweeps, e.tag ≠ 7) ∧ ∀ k ∈ calm.stackTable, MapEntry.merged 7 ∉ k.map := by
  refine ⟨by decide +kernel, ⟨by decide, _, List.mem_cons_self, List.mem_cons_self⟩, by decide, by decide⟩

/-- Two traces, one DROPPED, and accumulators of the lengths of the small stack. -/
theorem witness_mergeArithmetic :
    let t : TraceResult :=
      { channel := 3, dropped := false, holed := true, samples := List.replicate 64 5, saturated := 1, levels := [3] }
    let u : TraceResult :=
      { channel := 4, dropped := true, holed := false, samples := [], saturated := 0, levels := [] }
    let accs := (Stack.new settings).accs
    ([t, u].map (·.channel)).Nodup ∧ (∀ x ∈ [t, u], x.channel = 4 → x.dropped = true) ∧ t ∈ [t, u] ∧ t.dropped = false ∧
    accs[(3 : Fin 480)].numerators.length = settings.listen ∧ t.samples.length = settings.listen ∧
    accs[(3 : Fin 480)].denominators.length = windowCount settings.listen settings.divWindow ∧
    t.levels.length = windowCount settings.listen settings.divWindow ∧ 1 ≤ settings.divWindow := by decide +kernel

/-- A stack that keeps its sweeps, with room, with too little room, and with a stack held. -/
theorem witness_sweepRecords :
    let keeping : State := { calm with stackTable := [Stack.new { settings with keepSweeps := true }] }
    let size := 48 + ([] : List TraceResult).length * (16 + 4 * settings.listen)
    (opened.findStack 9).map (·.settings.keepSweeps) = some false ∧
    (keeping.findStack 9).map (·.settings.keepSweeps) = some true ∧ keeping.oq.heldOrder = [] ∧ size ≤ keeping.oq.free ∧
    ({ keeping with oq := { keeping.oq with heldOrder := [11] } } : State).oq.heldOrder ≠ [] ∧
    ({ keeping with oq := { keeping.oq with reservations := [{ vp := 11, bytes := 67108817 }] } } : State).oq.free < size ∧
    keeping.oq.records = [] ∧ queued.oq.records ≠ [] := by decide +kernel

/-- No grant: no READY entry, or no IDLE lane. -/
theorem witness_noGrant :
    (∀ e ∈ (listed entry).sweeps, e.state ≠ .ready) ∧
    ∀ l : Fin 4, ({ calm with lanes := Vector.replicate 4 { Lane.reset with state := .correlating } } : State).lanes[l].state ≠
      .idle := by decide +kernel

/-- A READY entry with each kind of reference, its pilot present and absent. -/
theorem witness_grant :
    let e : SweepEntry := { entry with state := .ready, length := 2 }
    let s := listed e
    let ring : Ring :=
      [(1000, { tag := 1000, samples := List.replicate 6 7#24 }), (1001, { tag := 1001, samples := List.replicate 6 9#24 })]
    let present := withPort s 0 { Port.reset with front := some 1001, ring := ring }
    s.sweeps[0]? = some e ∧ e.state = .ready ∧
    (∀ j f, s.sweeps[j]? = some f → f.state = .ready → e.start < f.start ∨ (e.start = f.start ∧ 0 ≤ j)) ∧
    s.lanes[(0 : Fin 4)].state = .idle ∧ (∀ m : Fin 4, m < 0 → s.lanes[m].state ≠ .idle) ∧
    s.findStack e.vp = some announcedStack ∧
    (listed { e with reference := .slot 0 }).sweeps[0]? = some { e with reference := .slot 0 } ∧
    (∀ j, j < e.length → present.sample 5 (e.start + j) = [7#24, 9#24][j]?) ∧ [7#24, 9#24].length = e.length ∧
    ∃ j, j < e.length ∧ s.sample 5 (e.start + j) = none := by
  refine ⟨rfl, rfl, ?_, rfl, ?_, rfl, rfl, ?_, rfl, 0, by decide, by decide +kernel⟩
  · intro j f hf _
    rcases j with _ | j
    · cases hf; exact .inr ⟨rfl, le_refl _⟩
    · cases hf
  · intro m hm; exact absurd hm (by simp)
  · intro j hj
    have hj : j < 2 := hj
    rcases j with _ | _ | j
    · decide +kernel
    · decide +kernel
    · omega

/-- A lane at work on a reference of one sample, its window with and without a gap. -/
theorem witness_jobResults (gap : GapPolicy) :
    let j : JobParams := { start := 5, length := 1, windowEnd := 6, listen := 2, shift := 0, divWindow := 64, gap := gap }
    let l : Lane :=
      { state := .correlating, held := some 7, params := some j
        snapshot := List.replicate 480 { state := .live, polarity := .reversed }, reference := [2#16], clipCount := 0
        window := [[(5, { tag := 5, samples := [3#24] }), (6, { tag := 6, samples := [4#24] })], [], [], []], result := [] }
    l.params = some j ∧ l.reference.length = j.length ∧ 1 ≤ j.length ∧ 1 ≤ j.listen ∧ 1 ≤ j.divWindow ∧
    j.windowEnd = j.start + j.length + j.listen - 2 ∧ l.snapshot.length = 480 ∧ l.window.length = 4 :=
  ⟨rfl, rfl, le_refl 1, show 1 ≤ 2 by decide, show 1 ≤ 64 by decide, rfl, List.length_replicate, rfl⟩

/-- Shifts at both bounds, and windows that are merged. -/
theorem witness_sums :
    (1 ≤ 1 ∧ 1 ≤ 31) ∧ (1 ≤ 31 ∧ 31 ≤ 31) ∧ |(1073741823 : Int)| < 2 ^ 30 ∧
    ¬ ((exampleJob .drop).gap = .drop ∧ none ∈ exampleWindow (some 1#24)) ∧
    ¬ ((exampleJob .zero).gap = .drop ∧ none ∈ exampleWindow none) := by decide +kernel

/-- A lane that is not CORRELATING, and entries in a lane, CORRELATING and in QCWAIT. -/
theorem witness_completions :
    let c : SweepEntry := { entry with state := .correlating, lane := some 0 }
    let w : SweepEntry := { entry with state := .qcWait, lane := some 0, qcTimer := some 4000 }
    let s := laned c .correlating
    let t := laned w .qcWait
    s.findSweep c.tag = some c ∧ s.lanes[(0 : Fin 4)].state = .correlating ∧ s.lanes[(0 : Fin 4)].held = some c.tag ∧
    (c.qc = none ∧ s.qcPolicy.required = false) ∧ t.findSweep w.tag = some w ∧ t.lanes[(0 : Fin 4)].state ≠ .correlating ∧
    w.qcTimer.isSome = true ∧ calm.lanes[(0 : Fin 4)].state = .idle := by decide +kernel

/-- Reports of each kind of outcome for a listed entry, in and out of QCWAIT, and of each refusal. -/
theorem witness_reports :
    (7 = 0 ∨ 1800 < 1801 ∨ 1000 < 1000 ∨ 2000 < 2000) ∧ ¬ (7 = 0 ∨ 1800 < 1800 ∨ 1000 < 1000 ∨ 2000 < 2000) ∧
    (listed entry).findSweep 7 = some entry ∧ entry.qc = none ∧
    (let r : QcRecord := { phase := 0, distortion := 0, force := 800, verdict := .pass }
     (listed { entry with qc := some r }).findSweep 7 = some { entry with qc := some r }) ∧
    verdictOf calm.qcPolicy (failedChecks calm.qcPolicy 80 300 600) = .pass ∧
    verdictOf calm.qcPolicy (failedChecks calm.qcPolicy 81 300 600) = .note ∧
    verdictOf calm.qcPolicy (failedChecks calm.qcPolicy 80 300 599) = .retry ∧
    verdictOf { calm.qcPolicy with forceAction := .reject } (failedChecks calm.qcPolicy 80 300 599) = .reject := by
  refine ⟨by decide, by decide, by decide +kernel, rfl, by decide +kernel, by decide, by decide, by decide,
    by decide⟩

/-- Stacks for which the completion test holds and does not, and channel lists of a part with one LIVE channel. -/
theorem witness_completion :
    let done : Stack := { Stack.new settings with map := [.merged 7, .merged 8], merged := 2 }
    let closing : Stack := { Stack.new settings with state := .closing }
    (done.state = .opened ∧ done.merged + done.abandoned = done.settings.expected) ∧
    (closing.state = .closing ∧ ∀ e ∈ calm.sweeps, e.vp ≠ 9) ∧
    (¬ ((Stack.new settings).merged + (Stack.new settings).abandoned = (Stack.new settings).settings.expected)) ∧
    calm.oq.heldOrder = [] ∧ 64 + ([] : List ListedChannel).length * (16 + 4 * settings.listen) ≤ calm.oq.free ∧
    (([] : List ListedChannel).map (·.channel)).Pairwise (· < ·) := by
  refine ⟨by decide, ⟨rfl, by decide⟩, by decide, rfl, by decide, by decide⟩

theorem witness_channelList : ∀ x : ListedChannel, x ∈ ([] : List ListedChannel) ↔
    calm.channels[x.channel].state = x.state ∧ x.state ≠ .unmapped := by
  intro x
  have : calm.channels[x.channel].state = .unmapped := by
    show ((Vector.replicate 480 ChannelEntry.reset)[x.channel.val]).state = _
    rw [Vector.getElem_replicate]; rfl
  rw [this]
  constructor
  · intro h; simp at h
  · rintro ⟨h1, h2⟩; exact absurd h1.symm h2

/-- STKOPEN's settings with the floor as its value and as DEFAULT, and stacks in each state for STKCLOSE and STKDROP. -/
theorem witness_stackRequests :
    settings.Lawful ∧ calm.stackTable.length < 8 ∧ (∀ y ∈ calm.stackTable, y.settings.vp ≠ settings.vp) ∧
    (8 = settings.floor ∨ (8 = 255 ∧ settings.floor = 8)) ∧ (255 = settings.floor ∨ (255 = 255 ∧ settings.floor = 8)) ∧
    (opened.findStack 9).map (·.state) = some .opened ∧
    (let held : State :=
       { calm with stackTable := [{ Stack.new settings with state := .held }], oq := { calm.oq with heldOrder := [9] } }
     (held.findStack 9).map (·.state) = some .held ∧ held.oq.heldOrder.head? = some 9) ∧
    (let behind : State :=
       { calm with stackTable := [{ Stack.new settings with state := .held }], oq := { calm.oq with heldOrder := [3, 9] } }
     (behind.findStack 9).map (·.state) = some .held ∧ behind.oq.heldOrder.head? ≠ some 9) ∧
    (let f : State := { calm with stackTable := [{ Stack.new settings with state := .finalizing }] }
     (f.findStack 9).map (·.state) = some .finalizing) :=
  ⟨settings_lawful, by decide, by decide, by decide, by decide, by decide +kernel, by decide +kernel, by decide +kernel,
    by decide +kernel⟩

/-- STKOPEN payloads of 14 bytes, one with a bad field, one without, against a full table and a table with the tag. -/
theorem witness_stackRefusals :
    (List.replicate 14 0#8).length = 14 ∧ field (List.replicate 14 0#8) 0 4 = 0 ∧
    (stkopenPayload settings).length = 14 ∧ readStackSettings (stkopenPayload settings) = some settings ∧
    (∃ k ∈ opened.stackTable, k.settings.vp = field (stkopenPayload settings) 0 4) ∧
    8 ≤ ({ calm with stackTable := List.replicate 8 (Stack.new settings) } : State).stackTable.length ∧
    requestOf (.stkclose .addressed (leBytes 4 0)) = some { kind := 20#8, payload := leBytes 4 0, ak := .addressed } ∧
    (∀ ak k p, Instr.stkclose .addressed (leBytes 4 0) ≠ .unknownRequest ak k p) ∧
    (∀ k ∈ calm.stackTable, k.settings.vp ≠ 4294967295) ∧
    ({ calm with stackTable := [{ Stack.new settings with state := .closing }] } : State).findStack 9 =
      some { Stack.new settings with state := .closing } := by
  refine ⟨rfl, by decide, by decide +kernel, by decide +kernel, ⟨_, List.mem_cons_self, by decide +kernel⟩, by simp, rfl,
    by simp, by decide, rfl⟩

/-- A held order with and without space for its first stack, and OQREL short of and at the record's end. -/
theorem witness_held :
    let s (bytes : Nat) : State :=
      { calm with
        stackTable := [{ Stack.new settings with state := .held }]
        oq := { calm.oq with heldOrder := [9], reservations := [{ vp := 3, bytes := bytes }] } }
    let size := 64 + (Stack.new settings).channelList.length * (16 + 4 * settings.listen)
    calm.oq.heldOrder = [] ∧ (s 67108801).oq.free < size ∧ size ≤ (s 67108800).oq.free ∧ (s 0).oq.heldOrder = 9 :: [] ∧
    ((s 0).findStack 9).map (·.state) = some .held ∧ calm.oq.records = [] ∧
    (let r : OutRecord := { kind := .stack, number := 4, size := 5, content := [1#8, 2#8, 3#8, 4#8, 5#8] }
     queued.oq.records = r :: [] ∧ r.size ≤ queued.oq.readPosition + min queued.oq.effectiveBlock (r.size - 3) ∧
       3 + min 1 (r.size - 3) < r.size) := by decide +kernel

theorem witness_finalize :
    let s : State := { calm with stackTable := [{ Stack.new settings with state := .finalizing }] }
    s.findStack 9 = some { Stack.new settings with state := .finalizing } ∧
    ∀ k, opened.findStack 9 = some k → k.state ≠ .finalizing := by
  refine ⟨rfl, ?_⟩
  intro k hk
  have : some (Stack.new settings) = some k := hk
  cases this; decide

/-- Accumulators with nothing merged and with one merge, and integers around the quotient 7 over 2. -/
theorem witness_stackedSamples :
    let a : Accumulators := { numerators := [7], denominators := [2], mergeCount := 1, holed := false, saturatedTotal := 0 }
    (Accumulators.initial settings).mergeCount = 0 ∧ 1 ≤ a.mergeCount ∧
    (∀ k, k < a.numerators.length → k / 64 < a.denominators.length) ∧ (∀ d ∈ a.denominators, 1 ≤ d) ∧
    (3 : Int) * 2 ≤ 7 ∧ (7 : Int) ≤ 4 * 2 := by
  refine ⟨rfl, by decide, ?_, by decide, by decide, by decide⟩
  intro k hk
  have hk : k < 1 := hk
  have : k = 0 := by omega
  subst this; decide

theorem witness_accumulators : busy.MapsLawful ∧ busy.WorkLawful ∧ busyOpened ∈ busy.stackTable :=
  ⟨witness_busy_maps, witness_busy_work, List.mem_cons_self⟩

/-- Characters outside the interval: the own address, 63, another one; lengths of 0 and 1,026; a selected and a deselected
part. -/
theorem witness_characters :
    calm.cmd.initInterval = false ∧ calm.cmd.unitAddress = some (1#8).toNat ∧ calm.cmd.unitAddress ≠ some (63#8).toNat ∧
    (calm.cmd.unitAddress ≠ some (2#8).toNat ∧ 2#8 ≠ 63#8) ∧ (0#8).toNat + 256 * (0#8).toNat = 0 ∧
    1025 < (2#8).toNat + 256 * (4#8).toNat ∧ calm.cmd.selection = .deselected ∧
    (after (.addressCharacter 1#8) calm).cmd.selection ≠ .deselected ∧
    (after (.addressCharacter 1#8) calm).cmd.assembly = [] := by decide +kernel

/-- Frames of each disposition: a bad check, a must-answer request, a full queue, a longest payload. -/
theorem witness_frameDispositions :
    wholeFrame [1#8, 0#8, 26#8, 0#8, 0#8] = true ∧ checkGood [1#8, 0#8, 26#8, 0#8, 0#8] = false ∧
    26#8 ∈ [3#8, 16#8, 22#8, 23#8, 24#8, 26#8, 27#8, 30#8] ∧ (List.replicate 1024 0#8).length ≤ 1024 ∧
    (after (.addressCharacter 63#8) calm).cmd.selection = .selectedAll ∧
    4 ≤ ({ calm.cmd with inputQueue := List.replicate 4 { kind := 26#8, payload := [], ak := .addressed } } :
      CommandPort).inputQueue.length ∧ calm.cmd.inputQueue.length < 4 := by decide +kernel

/-- Lists of 63 and of 64 notices; fronts of none and of two ports; masks at their bounds. -/
theorem witness_notices :
    (∀ p : Fin 4, calm.ports[p].front = none) ∧
    (let s := withPort (withPort calm 0 { Port.reset with front := some 9 }) 3 { Port.reset with front := some 12 }
     (∃ p : Fin 4, s.ports[p].front = some 12) ∧ ∀ (p : Fin 4) (f : Nat), s.ports[p].front = some f → f ≤ 12) ∧
    (List.replicate 63 (0 : Nat)).length < 64 ∧ 64 ≤ (List.replicate 64 (0 : Nat)).length ∧
    (127#8).toNat < 128 ∧ 128 ≤ (128#8).toNat ∧ calm.nq.notices = [] ∧ noticed.nq.notices ≠ [] := by
  refine ⟨by decide +kernel, ⟨⟨3, by decide +kernel⟩, ?_⟩, by decide, by decide, by decide, by decide, rfl,
    by decide +kernel⟩
  intro p f hf
  have : ∀ p : Fin 4, (withPort (withPort calm 0 { Port.reset with front := some 9 }) 3
      { Port.reset with front := some 12 }).ports[p].front ∈ [none, some 9, some 12] := by decide +kernel
  have := this p
  rw [hf] at this
  simp at this
  omega

end Sys2Proof.Tests
end

section
/-! Frames on a port outside activation (R23). -/

namespace Sys2Proof.Machine

variable (s : State) (p : Fin 4)

/-- Bytes that begin with the start code are a frame: the port handles what it reads of the rest, then hands off (R21, R41). -/
theorem exec_lineFrame (body : List Byte) :
    exec (.lineFrame p ([0x7E#8, 0x81#8] ++ body)) s = .next (s.portEvent p (s.portFrame p (readLineFrame body))) := by
  show execLineFrame p ([0x7E#8, 0x81#8] ++ body) s = _
  simp [execLineFrame]

/-- A port that listens to no frame handles a valid or a bad one alike: not at all (R23). -/
theorem State.portFrame_discarded (frame : Option LineFrame)
    (h : s.ports[p].state ∈ [.off, .parked, .retryWait, .fault]) : s.portFrame p frame = (s, none) := by
  simp only [List.mem_cons, List.not_mem_nil, or_false] at h
  unfold State.portFrame
  rcases h with hoff | hparked | hretry | hfault
  · rw [hoff]
  · rw [hparked]
  · rw [hretry]
  · rw [hfault]

/-- A draining port restarts its silence timer at any frame (R23, R35). -/
theorem State.portFrame_draining (frame : Option LineFrame) (h : s.ports[p].state = .draining) :
    s.portFrame p frame = (s.drainingFrame p, none) := by
  unfold State.portFrame
  rw [h]

/-- The silence timer is no part of the activation state. -/
theorem State.drainingFrame_state : (s.drainingFrame p).ports[p].state = s.ports[p].state := by
  rw [State.drainingFrame, State.updPort_same]

/-- An event that writes no frame and keeps the activation state hands nothing off (R41). -/
theorem State.portEvent_same {t : State} (h : t.ports[p].state = s.ports[p].state) : s.portEvent p (t, none) = t :=
  t.handOff_same s p h

/-- Settles O27, by the activation state: neither case writes a frame or leaves the state, so nothing is handed off. -/
theorem framesOutsideActivationAreDiscarded : Obligations.FramesOutsideActivationAreDiscarded := by
  unfold Obligations.FramesOutsideActivationAreDiscarded
  intro s p body
  rw [exec_lineFrame]
  constructor
  · intro hdeaf
    rw [s.portFrame_discarded p _ hdeaf, s.portEvent_same p rfl]
  · intro hdraining
    rw [s.portFrame_draining p _ hdraining, s.portEvent_same p (s.drainingFrame_state p)]
    rfl

end Sys2Proof.Machine
end

section
/-! Rounding, clamping and counting of correlation sums (R90, R91). -/

namespace Sys2Proof.Machine

/-! ### The rounding shift -/

/-- A shift by 0 is exact (R90). -/
@[simp] theorem roundShift_zero_left (x : Int) : roundShift 0 x = x := if_pos rfl

/-- The rounding shift in integers: half of 2^q is added to the magnitude before the division (R90). -/
theorem roundShift_eq (q : Nat) (x : Int) (hq : 1 ≤ q) :
    roundShift q x = x.sign * ((|x| + 2 ^ (q - 1)) / 2 ^ q) := by
  rw [roundShift, if_neg (by omega), Int.abs_eq_natAbs]
  push_cast
  rfl

@[simp] theorem roundShift_zero_right (q : Nat) : roundShift q 0 = 0 := by
  simp [roundShift]

/-- The rounding shift treats both signs alike (R90). -/
@[simp] theorem roundShift_neg (q : Nat) (x : Int) : roundShift q (-x) = -roundShift q x := by
  rcases Nat.eq_zero_or_pos q with rfl | hq
  · simp
  · rw [roundShift_eq q _ hq, roundShift_eq q _ hq, Int.sign_neg, abs_neg, neg_mul]

/-- A positive sum half way between m and m + 1 multiples of 2^q rounds up (R90). -/
theorem roundShift_half (q : Nat) (m : Int) (hq : 1 ≤ q) (hm : 0 ≤ m) :
    roundShift q (2 ^ q * m + 2 ^ (q - 1)) = m + 1 := by
  have hpos : (0 : Int) < 2 ^ q * m + 2 ^ (q - 1) := by positivity
  have htwoHalves : (2 : Int) ^ (q - 1) + 2 ^ (q - 1) = 2 ^ q := by
    rw [← two_mul, ← pow_succ', Nat.sub_add_cancel hq]
  have hmultiple : (2 : Int) ^ q * m + 2 ^ (q - 1) + 2 ^ (q - 1) = 2 ^ q * (m + 1) := by
    rw [add_assoc, htwoHalves, mul_add, mul_one]
  rw [roundShift_eq q _ hq, Int.sign_eq_one_of_pos hpos, abs_of_pos hpos, one_mul, hmultiple,
    Int.mul_ediv_cancel_left _ (by positivity)]

/-- The largest shift leaves nothing of a sum below half of 2^31 (R90). -/
theorem roundShift_eq_zero_of_small (x : Int) (h : |x| < 2 ^ 30) : roundShift 31 x = 0 := by
  have hquotient : (|x| + 2 ^ 30) / 2 ^ 31 = 0 :=
    Int.ediv_eq_zero_of_lt (by positivity) (by omega)
  rw [roundShift_eq 31 x (by omega), hquotient, mul_zero]

/-! ### The clamp -/

/-- The clamp treats both signs alike (R91). -/
@[simp] theorem clampTo_traceBound_neg (v : Int) : clampTo traceBound (-v) = -clampTo traceBound v := by
  rw [clampTo_traceBound, clampTo_traceBound]
  omega

/-- What the clamp of a trace lets through (R91). -/
theorem clampTo_traceBound_range (v : Int) :
    -2147483647 ≤ clampTo traceBound v ∧ clampTo traceBound v ≤ 2147483647 := by
  rw [clampTo_traceBound]
  omega

/-- Which scaled values saturate (R91). -/
theorem clamps_traceBound (v : Int) :
    clamps traceBound v = decide (2147483647 < v ∨ v < -2147483647) := by
  rw [Bool.decide_or]
  rfl

/-! ### The sums -/

/-- One sum for each lag (R89). -/
@[simp] theorem length_correlate (listen : Nat) (r d : List Int) : (correlate listen r d).length = listen := by
  simp [correlate]

/-- A sum of products with a negated window is the negated sum. -/
theorem dot_map_neg (r d : List Int) : dot r (d.map fun x => -x) = -dot r d := by
  induction r generalizing d with
  | nil => simp [dot]
  | cons a as ih =>
    cases d with
    | nil => simp [dot]
    | cons b bs =>
      simp only [List.map_cons, dot, ih]
      ring

/-- The sums of a negated window are the negated sums. -/
theorem correlate_map_neg (listen : Nat) (r d : List Int) :
    correlate listen r (d.map fun x => -x) = (correlate listen r d).map fun x => -x := by
  simp only [correlate, List.map_map, ← List.map_drop, dot_map_neg, Function.comp_def]

/-! ### The trace -/

/-- The scaled sums of a window under a polarity, before the clamp (R87 to R90): absent samples read as 0. -/
def scaledSums (j : JobParams) (r : List Int) (pol : Polarity) (window : List (Option Sample)) : List Int :=
  (correlate j.listen r (window.map fun d => (d.map (polarised pol)).getD 0)).map (roundShift j.shift)

@[simp] theorem length_scaledSums (j : JobParams) (r : List Int) (pol : Polarity) (window : List (Option Sample)) :
    (scaledSums j r pol window).length = j.listen := by
  simp [scaledSums]

/-- A REVERSED window holds the negated samples of the NORMAL one (R89); an absent sample is 0 in both. -/
theorem window_reversed (window : List (Option Sample)) :
    (window.map fun d => (d.map (polarised .reversed)).getD 0) =
      (window.map fun d => (d.map (polarised .normal)).getD 0).map fun x => -x := by
  rw [List.map_map]
  refine List.map_congr_left fun d _ => ?_
  cases d with
  | none => rfl
  | some x => rfl

/-- Reversing the polarity negates every scaled sum: correlation and rounding are odd (R89, R90). -/
theorem scaledSums_reversed (j : JobParams) (r : List Int) (window : List (Option Sample)) :
    scaledSums j r .reversed window = (scaledSums j r .normal window).map fun x => -x := by
  rw [scaledSums, window_reversed, correlate_map_neg]
  simp only [scaledSums, List.map_map, Function.comp_def, roundShift_neg]

/-- A trace that is not DROPPED: its clamped scaled sums with the count of those the clamp changed (R88 to R93). -/
theorem traceResult_of_kept (j : JobParams) (r : List Int) (c : Fin 480) (pol : Polarity)
    (window : List (Option Sample)) (h : ¬ (j.gap = .drop ∧ none ∈ window)) :
    traceResult j r c pol window =
      let ys := (scaledSums j r pol window).map (clampTo traceBound)
      { channel := c, dropped := false, holed := window.any Option.isNone, samples := ys
        saturated := (scaledSums j r pol window).countP (clamps traceBound)
        levels := levels j.listen j.divWindow ys } := by
  have hgaps : ¬ (j.gap = .drop ∧ window.any Option.isNone = true) := by
    simpa using h
  rw [List.countP_eq_length_filter]
  exact if_neg hgaps

/-- The samples of a REVERSED channel are the negated samples of the NORMAL one: the clamp is odd too (R89 to R91). -/
theorem traceResult_samples_reversed (j : JobParams) (r : List Int) (c : Fin 480) (window : List (Option Sample))
    (h : ¬ (j.gap = .drop ∧ none ∈ window)) :
    (traceResult j r c .reversed window).samples = (traceResult j r c .normal window).samples.map fun y => -y := by
  simp only [traceResult_of_kept _ _ _ _ _ h, scaledSums_reversed, List.map_map, Function.comp_def,
    clampTo_traceBound_neg]

/-- A merge reads the saturated count of a trace for the saturated total alone (R91, R129). -/
theorem accumulate_saturated (k : StackSettings) (t : TraceResult) (a : Accumulators) (n : Nat) :
    accumulate k { t with saturated := n } a =
      { accumulate k t a with saturatedTotal := a.saturatedTotal + n } := rfl

/-- Settles O45: the rounding shift by its integer form, the trace through its scaled sums. -/
theorem sumsAreRoundedAndClamped : Obligations.SumsAreRoundedAndClamped := by
  unfold Obligations.SumsAreRoundedAndClamped
  refine ⟨roundShift_zero_left, fun q A hq _ => roundShift_eq q A hq, roundShift_zero_right, ?half, roundShift_neg,
    roundShift_eq_zero_of_small, ?trace, traceResult_samples_reversed, accumulate_saturated⟩
  case half =>
    intro q m hq _ hm
    exact ⟨roundShift_half q m hq hm, by rw [roundShift_neg, roundShift_half q m hq hm]⟩
  case trace =>
    intro j r c pol window hkept
    dsimp only
    rw [traceResult_of_kept j r c pol window hkept]
    refine ⟨rfl, List.countP_congr fun v _ => by rw [clamps_traceBound], ?atMostLags, ?range⟩
    case atMostLags => exact List.countP_le_length.trans_eq (length_scaledSums j r pol window)
    case range =>
      intro y hy
      obtain ⟨v, _, rfl⟩ := List.mem_map.mp hy
      exact clampTo_traceBound_range v

end Sys2Proof.Machine
end

section
/-! Evaluation of quality reports: failed checks, verdict and reported checks (R105, R106). -/

namespace Sys2Proof.Machine

/-! ### Severity of actions -/

@[simp] theorem QcAction.rank_off : QcAction.off.rank = 0 := rfl
@[simp] theorem QcAction.rank_note : QcAction.note.rank = 1 := rfl
@[simp] theorem QcAction.rank_reject : QcAction.reject.rank = 2 := rfl
@[simp] theorem QcAction.rank_retry : QcAction.retry.rank = 3 := rfl

/-- An action is the one its rank names: the code of the list is read back. -/
theorem QcAction.rank_injective : Function.Injective QcAction.rank := by
  have hread (a : QcAction) : ofCode qcActionList a.rank = some a := ofCode_codeOf (by cases a <;> decide)
  intro a b h
  simpa [hread] using congrArg (ofCode qcActionList) h

theorem QcAction.forall_iff {P : QcAction → Prop} : (∀ a, P a) ↔ P .off ∧ P .note ∧ P .reject ∧ P .retry := by
  constructor
  · intro h
    exact ⟨h _, h _, h _, h _⟩
  · rintro ⟨hoff, hnote, hreject, hretry⟩ a
    cases a <;> assumption

/-- The more severe of two actions has the higher of their ranks. -/
@[simp] theorem QcAction.rank_worse (a b : QcAction) : (a.worse b).rank = max a.rank b.rank := by
  unfold QcAction.worse
  split <;> omega

/-! ### The most severe action among the failed checks -/

/-- Some failed check has the action. -/
def FailedChecks.Names (f : FailedChecks) (q : QcPolicy) (a : QcAction) : Prop :=
  (f.phase = true ∧ q.phaseAction = a) ∨ (f.distortion = true ∧ q.distortionAction = a) ∨
    (f.force = true ∧ q.forceAction = a)

/-- Every failed check has action OFF, said of the three checks. -/
theorem FailedChecks.names_only_off_iff (f : FailedChecks) (q : QcPolicy) :
    (∀ a, f.Names q a → a = .off) ↔ (f.phase = true → q.phaseAction = .off) ∧
      (f.distortion = true → q.distortionAction = .off) ∧ (f.force = true → q.forceAction = .off) := by
  simp only [FailedChecks.Names, or_imp, and_imp, forall_and, forall_comm (α := QcAction), forall_eq']

section
variable {q : QcPolicy} {f : FailedChecks}

/-- No failed check has a more severe action than the worst one. -/
theorem rank_le_worstAction {a : QcAction} (h : f.Names q a) : a.rank ≤ (worstAction q f).rank := by
  rw [worstAction, QcAction.rank_worse, QcAction.rank_worse]
  rcases h with ⟨hfails, rfl⟩ | ⟨hfails, rfl⟩ | ⟨hfails, rfl⟩ <;> simp [hfails]

/-- The more severe of two actions is one of them, so it is OFF or of a failed check when both are. -/
theorem off_or_named_worse {a b : QcAction} (ha : a = .off ∨ f.Names q a) (hb : b = .off ∨ f.Names q b) :
    a.worse b = .off ∨ f.Names q (a.worse b) := by
  unfold QcAction.worse
  split
  · exact hb
  · exact ha

/-- A check counts with its action when it failed, and with OFF when it did not. -/
theorem off_or_named_of_failed {failed : Bool} {a : QcAction} (h : failed = true → f.Names q a) :
    (if failed then a else .off) = .off ∨ f.Names q (if failed then a else .off) := by
  split
  case isTrue hfailed => exact .inr (h hfailed)
  case isFalse => exact .inl rfl

/-- The worst action is that of a failed check, but for the OFF that stands for no failure. -/
theorem worstAction_off_or_named (q : QcPolicy) (f : FailedChecks) :
    worstAction q f = .off ∨ f.Names q (worstAction q f) := by
  have hphase := off_or_named_of_failed (q := q) (f := f) fun hfailed => .inl ⟨hfailed, rfl⟩
  have hdistortion := off_or_named_of_failed (q := q) (f := f) fun hfailed => .inr (.inl ⟨hfailed, rfl⟩)
  have hforce := off_or_named_of_failed (q := q) (f := f) fun hfailed => .inr (.inr ⟨hfailed, rfl⟩)
  exact off_or_named_worse (off_or_named_worse hphase hdistortion) hforce

/-- The worst action is OFF exactly when no failed check has another. -/
theorem worstAction_eq_off_iff : worstAction q f = .off ↔ ∀ a, f.Names q a → a = .off := by
  constructor
  · intro hworst a ha
    have hrank : a.rank ≤ QcAction.off.rank := hworst ▸ rank_le_worstAction ha
    exact QcAction.rank_injective (Nat.le_zero.mp hrank)
  · intro honly
    exact (worstAction_off_or_named q f).elim id (honly _)

/-- The worst action is another one exactly when a failed check has it and none has one more severe. -/
theorem worstAction_eq_iff {a : QcAction} (hoff : a ≠ .off) :
    worstAction q f = a ↔ f.Names q a ∧ ∀ b, f.Names q b → b.rank ≤ a.rank := by
  constructor
  · rintro rfl
    exact ⟨(worstAction_off_or_named q f).resolve_left hoff, fun b hb => rank_le_worstAction hb⟩
  · rintro ⟨hnamed, hmost⟩
    have hle : a.rank ≤ (worstAction q f).rank := rank_le_worstAction hnamed
    refine QcAction.rank_injective (le_antisymm ?_ hle)
    rcases worstAction_off_or_named q f with hworst | hworst
    · rw [hworst]
      exact Nat.zero_le _
    · exact hmost _ hworst

/-! ### Verdict and reported checks -/

/-- The codes of the verdicts follow the ranks of the actions that name them. -/
theorem QcAction.verdict_injective : Function.Injective QcAction.verdict := by
  have hcode : codeOf verdictList ∘ QcAction.verdict = QcAction.rank := by
    funext a
    cases a <;> rfl
  exact Function.Injective.of_comp (hcode ▸ QcAction.rank_injective)

/-- The verdict is the one the worst action names. -/
theorem verdictOf_eq_verdict_iff (a : QcAction) : verdictOf q f = a.verdict ↔ worstAction q f = a :=
  QcAction.verdict_injective.eq_iff

/-- A verdict other than PASS is the most severe action among the failed checks (R106). -/
theorem verdictOf_eq_verdict_iff_named {a : QcAction} (hoff : a ≠ .off) :
    verdictOf q f = a.verdict ↔ f.Names q a ∧ ∀ b, f.Names q b → b.rank ≤ a.rank :=
  (verdictOf_eq_verdict_iff a).trans (worstAction_eq_iff hoff)

theorem verdictOf_eq_pass_iff : verdictOf q f = .pass ↔ ∀ a, f.Names q a → a = .off :=
  (verdictOf_eq_verdict_iff .off).trans worstAction_eq_off_iff

theorem verdictOf_eq_note_iff :
    verdictOf q f = .note ↔ f.Names q .note ∧ ¬ f.Names q .reject ∧ ¬ f.Names q .retry :=
  (verdictOf_eq_verdict_iff_named (a := .note) (by decide)).trans (by simp [QcAction.forall_iff])

theorem verdictOf_eq_reject_iff : verdictOf q f = .reject ↔ f.Names q .reject ∧ ¬ f.Names q .retry :=
  (verdictOf_eq_verdict_iff_named (a := .reject) (by decide)).trans (by simp [QcAction.forall_iff])

theorem verdictOf_eq_retry_iff : verdictOf q f = .retry ↔ f.Names q .retry :=
  (verdictOf_eq_verdict_iff_named (a := .retry) (by decide)).trans (by simp [QcAction.forall_iff])

/-- A failed check goes unreported when its action is OFF. -/
theorem reportedChecks_eq_none_iff :
    reportedChecks q f = { phase := false, distortion := false, force := false } ↔
      (f.phase = true → q.phaseAction = .off) ∧ (f.distortion = true → q.distortionAction = .off) ∧
      (f.force = true → q.forceAction = .off) := by
  simp [reportedChecks]

/-- No check is reported exactly for a PASS (R106). -/
theorem verdictOf_eq_pass_iff_unreported :
    verdictOf q f = .pass ↔ reportedChecks q f = { phase := false, distortion := false, force := false } := by
  rw [verdictOf_eq_pass_iff, FailedChecks.names_only_off_iff, reportedChecks_eq_none_iff]

end

/-! ### The taking of a report -/

section
variable (s : State)

theorem exec_swqc (ak : AddressKind) (payload : List Byte) :
    exec (.swqc ak payload) s = .next (s.take { kind := 18#8, payload := payload, ak := ak } (swqcOwner payload)) := rfl

@[simp] theorem State.postNote_cmd (tag : Nat) (v : Verdict) (f : FailedChecks) : (s.postNote tag v f).cmd = s.cmd := by
  unfold State.postNote
  split
  · exact s.post_cmd _
  · rfl

/-- A verdict is applied without the command port. -/
@[simp] theorem State.applyVerdict_cmd (e : SweepEntry) (r : QcRecord) : (s.applyVerdict e r).1.cmd = s.cmd := by
  unfold State.applyVerdict
  split
  · exact s.abortSweep_cmd e _
  · dsimp only
    split
    · rw [State.mergeSweep_cmd, State.updSweep_cmd]
    · exact s.updSweep_cmd _ _

end

section
variable {tag phase distortion force : Nat}

theorem payloadSuits_swqcPayload : payloadSuits 18#8 (swqcPayload tag phase distortion force) = true := by
  simp [payloadSuits, swqcPayload]

theorem field_swqcPayload_tag (h : tag < 65536) : field (swqcPayload tag phase distortion force) 0 2 = tag := by
  simp only [swqcPayload, List.append_assoc]
  exact field_leBytes h

theorem field_swqcPayload_phase (h : phase < 65536) : field (swqcPayload tag phase distortion force) 2 2 = phase := by
  simp only [swqcPayload, List.append_assoc]
  rw [field_skip (o := 0) (by simp)]
  exact field_leBytes h

theorem field_swqcPayload_distortion (h : distortion < 65536) :
    field (swqcPayload tag phase distortion force) 4 2 = distortion := by
  simp only [swqcPayload, List.append_assoc]
  rw [field_skip (o := 2) (by simp), field_skip (o := 0) (by simp)]
  exact field_leBytes h

theorem field_swqcPayload_force (h : force < 65536) : field (swqcPayload tag phase distortion force) 6 2 = force := by
  rw [swqcPayload, field_skip (o := 0) (by simp), field_all (by simp), leNat_leBytes h]

/-- A report in range of a listed sweep without a record is taken (R104, R107). -/
theorem swqcOwner_listed {s : State} {e : SweepEntry} (htag : 1 ≤ tag) (htag' : tag < 65536) (hphase : phase ≤ 1800)
    (hdistortion : distortion ≤ 1000) (hforce : force ≤ 2000) (he : s.findSweep tag = some e) (hqc : e.qc = none) :
    swqcOwner (swqcPayload tag phase distortion force) s = reportTaken s e phase distortion force := by
  unfold swqcOwner
  rw [field_swqcPayload_tag htag', field_swqcPayload_phase (by omega), field_swqcPayload_distortion (by omega),
    field_swqcPayload_force (by omega), if_neg (by omega), he]
  simp [hqc]

end

theorem reportTaken_cmd (s : State) (e : SweepEntry) (phase distortion force : Nat) :
    (reportTaken s e phase distortion force).state.cmd = s.cmd := by
  simp [reportTaken]

/-- Settles O47: the verdict through the worst action, the answer through the taking of the report. -/
theorem verdictsAreTheMostSevereAction : Obligations.VerdictsAreTheMostSevereAction := by
  unfold Obligations.VerdictsAreTheMostSevereAction
  refine ⟨?checks, ?verdicts, ?answer⟩
  case checks =>
    intro q phase distortion force
    simp [failedChecks]
  case verdicts =>
    intro q f
    exact ⟨verdictOf_eq_pass_iff, verdictOf_eq_note_iff, verdictOf_eq_reject_iff, verdictOf_eq_retry_iff,
      by simp [reportedChecks], by simp [reportedChecks], by simp [reportedChecks], verdictOf_eq_pass_iff_unreported⟩
  case answer =>
    intro s ak tag phase distortion force e htag htag' hphase hdistortion hforce he hqc asked htaking
    have hfound : s.dequeue.findSweep tag = some e := he
    rw [exec_swqc, State.take_fits htaking payloadSuits_swqcPayload,
      swqcOwner_listed htag htag' hphase hdistortion hforce hfound hqc]
    exact ⟨_, _, congrArg _ (State.conclude_taken rfl rfl (reportTaken_cmd _ _ _ _ _) rfl), rfl⟩

end Sys2Proof.Machine
end

section
/-! The samples and the port front of a PROBE answer (R12, R195, R196). -/

namespace Sys2Proof.Machine

/-! ### The sign extension -/

/-- What lies above the bytes written is not written. -/
theorem leBytes_add_mul (n v k : Nat) : leBytes n (v + 256 ^ n * k) = leBytes n v := by
  induction n generalizing v with
  | zero => rfl
  | succ n ih =>
    have hv : v + 256 ^ (n + 1) * k = v + 256 * (256 ^ n * k) := by ring
    have hdiv : (v + 256 * (256 ^ n * k)) / 256 = v / 256 + 256 ^ n * k := by omega
    have hbyte : BitVec.ofNat 8 (v + 256 * (256 ^ n * k)) = BitVec.ofNat 8 v := by
      apply BitVec.eq_of_toNat_eq
      simp only [BitVec.toNat_ofNat]
      omega
    rw [leBytes, leBytes, hv, hdiv, hbyte, ih]

/-- A value over its low bytes is the run of these bytes, then the run of what stands above them (R194). -/
theorem leBytes_concat {m n v k : Nat} (h : v < 256 ^ m) :
    leBytes (m + n) (v + 256 ^ m * k) = leBytes m v ++ leBytes n k := by
  rw [leBytes_add, leBytes_add_mul, Nat.add_mul_div_left _ _ (by positivity), Nat.div_eq_of_lt h, Nat.zero_add]

/-- A sample in four bytes: 255 above the stored 24 bits when negative, 0 otherwise (R196). -/
theorem sample_toInt_emod (d : Sample) :
    (d.toInt % (256 ^ 4 : Nat)).toNat = d.toNat + 256 ^ 3 * (if d.toInt < 0 then 255 else 0) := by
  have hd := d.isLt
  have hint := d.toInt_eq_toNat_cond
  split at hint <;> split <;> omega

/-- A present sample is its three stored bytes, then the byte of its sign (R196). -/
theorem probeSample_some (d : Sample) :
    probeSample (some d) = leBytes 3 d.toNat ++ [if d.toInt < 0 then 0xFF#8 else 0x00#8] := by
  have hd : d.toNat < 256 ^ 3 := d.isLt
  rw [probeSample, leInt, sample_toInt_emod, leBytes_concat (n := 1) hd, leBytes_one]
  split <;> rfl

@[simp] theorem probeSample_length (x : Option Sample) : (probeSample x).length = 4 := by
  cases x with
  | none => rfl
  | some d => simp [probeSample_some]

@[simp] theorem indexBytes_length (i : Option Nat) : (indexBytes i).length = 8 := by
  cases i <;> simp [indexBytes]

/-! ### The places in the answer -/

/-- The item of a number among items of equal size, cut from their joined bytes. -/
theorem take_drop_flatMap {α : Type} (f : α → List Byte) (size : Nat) (xs : List α)
    (hsize : ∀ x ∈ xs, (f x).length = size) {j : Nat} (hj : j < xs.length) :
    ((xs.flatMap f).drop (size * j)).take size = f xs[j] := by
  have hcut := chunks_getElem? size xs.length (xs.flatMap f) j hj
  rw [chunks_flatMap f size xs hsize] at hcut
  simpa [hj] using hcut.symm

section
variable (s : State) (c : Fin 480) (first count : Nat)

/-- The port front follows the two bytes of the channel (R195). -/
theorem probeAnswer_front :
    ((probeAnswer s c first count).drop 2).take 8 = indexBytes s.ports[channelPort c].front := by
  simp only [probeAnswer, List.append_assoc]
  rw [List.drop_left' (by simp), List.take_left' (by simp)]

/-- The samples follow the twenty bytes of channel, port front, first index and count (R195). -/
theorem probeAnswer_samples : (probeAnswer s c first count).drop 20 =
    (List.range count).flatMap fun j => probeSample (s.sample c (first + j)) :=
  List.drop_left' (by simp)

theorem probeAnswer_sample {j : Nat} (hj : j < count) :
    ((probeAnswer s c first count).drop (20 + 4 * j)).take 4 = probeSample (s.sample c (first + j)) := by
  rw [← List.drop_drop, probeAnswer_samples, take_drop_flatMap _ 4 _ (by simp) (by simpa using hj), List.getElem_range]

end

/-! ### The taking of a PROBE -/

section
variable {s : State} {c : Fin 480} {channel first count : Nat}

theorem exec_probe (payload : List Byte) :
    exec (.probe payload) s =
      .next (s.take { kind := 3#8, payload := payload, ak := .addressed } (probeOwner payload)) := rfl

theorem payloadSuits_probePayload : payloadSuits 3#8 (probePayload channel first count) = true := by
  simp [payloadSuits, probePayload]

theorem field_probePayload_channel (h : channel < 65536) :
    field (probePayload channel first count) 0 2 = channel := by
  rw [probePayload, List.append_assoc, field_leBytes h]

theorem field_probePayload_first (h : first < 18446744073709551616) :
    field (probePayload channel first count) 2 8 = first := by
  rw [probePayload, List.append_assoc, field_skip (o := 0) (by simp), field_leBytes h]

theorem field_probePayload_count (h : count < 65536) :
    field (probePayload channel first count) 10 2 = count := by
  rw [probePayload, field_skip (o := 0) (by simp), field_all (by simp), leNat_leBytes h]

/-- A PROBE of a channel and a count in range is answered, and the state stands (R12, R13). -/
theorem probeOwner_inRange (hfirst : first < 18446744073709551616) (hpos : 1 ≤ count) (hcount : count ≤ 256) :
    probeOwner (probePayload c.val first count) s =
      { state := s, result := .ok, payload := probeAnswer s c first count } := by
  have hchannel : field (probePayload c.val first count) 0 2 = c.val := field_probePayload_channel (by omega)
  unfold probeOwner
  simp only [hchannel, field_probePayload_first hfirst, field_probePayload_count (show count < 65536 by omega)]
  rw [dif_pos c.isLt, if_pos ⟨hpos, hcount⟩]

/-- A PROBE in range changes the command port alone: its answer is SENDING (R12, R174). -/
theorem exec_probe_inRange (hfirst : first < 18446744073709551616) (hpos : 1 ≤ count) (hcount : count ≤ 256)
    (htaking : s.Taking { kind := 3#8, payload := probePayload c.val first count, ak := .addressed }) :
    exec (.probe (probePayload c.val first count)) s = .next { s with
      cmd := s.cmd.taken { kind := 3#8, payload := probePayload c.val first count, ak := .addressed } .ok
        (probeAnswer s c first count) } := by
  rw [exec_probe, State.take_fits htaking payloadSuits_probePayload, probeOwner_inRange hfirst hpos hcount,
    State.conclude_ok (x := s) (c := s.cmd) rfl rfl rfl]
  rfl

end

/-- Settles O60: the samples by the sign extension, their places by the sizes of the parts of the answer. -/
theorem probeSamplesAreSignExtended : Obligations.ProbeSamplesAreSignExtended := by
  unfold Obligations.ProbeSamplesAreSignExtended
  refine ⟨probeSample_some, by decide, by decide, by decide, by decide, rfl, by decide, rfl, ?answer⟩
  intro s c first count hfirst hpos hcount htaking
  exact ⟨_, probeAnswer s c first count, exec_probe_inRange hfirst hpos hcount htaking, rfl,
    probeAnswer_front s c first count, fun j hj => probeAnswer_sample s c first count hj⟩

end Sys2Proof.Machine
end

section
/-! What one change of a port can do to its ring law and its state law (R6, R7, R10, R19, 2.1.1). -/

namespace Sys2Proof.Machine

/-! ### The ring law -/

/-- The ring law reads the front and the ring alone. -/
theorem Port.RingLaw.congr {x y : Port} (h : x.RingLaw) (hfront : y.front = x.front) (hring : y.ring = x.ring) :
    y.RingLaw where
  form := hring ▸ h.form
  behind := by rw [hfront, hring]; exact h.behind
  front := by rw [hfront]; exact h.front

/-- A ring whose port has no front is empty. -/
theorem Port.RingLaw.ring_nil {x : Port} (h : x.RingLaw) (hfront : x.front = none) : x.ring = [] := by
  refine List.eq_nil_iff_forall_not_mem.mpr fun c hc => ?_
  obtain ⟨f, hf, -⟩ := h.behind c hc
  simp [hfront] at hf

/-- The port after the write of a frame (R7). -/
def Port.written (x : Port) (f : LineFrame) : Port :=
  { x with ring := ringWrite x.ring x.front f.index f.samples, front := some f.index }

/-- A frame that R21 calls valid, as far as the ring is concerned. -/
structure LineFrame.Valid (f : LineFrame) : Prop where
  index : f.index < Config.indexLimit
  some : 1 ≤ f.samples.length
  few : f.samples.length ≤ Config.portSlots

theorem readLineFrame_valid {body : List Byte} {f : LineFrame} (h : readLineFrame body = some f) : f.Valid := by
  unfold readLineFrame at h
  dsimp only at h
  split at h
  · rename_i hc
    obtain ⟨hone, hmany, -, -⟩ := hc
    cases h
    refine ⟨field_lt body 0 6, ?_, ?_⟩ <;> simpa [chunks_length] using by assumption
  · cases h

/-- A cell left by a write is the frame's, or an old one at a position that is neither the frame's nor skipped (R7). -/
theorem mem_ringWrite {r : Ring} {g i : Nat} {ds : List Sample} (hr : ringWf r = true) {q : Nat} {x : RingCell}
    (h : (q, x) ∈ ringWrite r (some g) i ds) (hw : ringWf (ringWrite r (some g) i ds) = true) :
    x.tag = i ∨ ((q, x) ∈ r ∧ ringPosition i ≠ q ∧ skips g i q = false) := by
  have hread := (ringRead_eq_some ((ringWf_iff _).mp hw).1).mpr h
  rw [ringRead_ringWrite r (some g) i q ds hr] at hread
  split at hread
  · cases hread
    exact .inl rfl
  · rename_i hne
    dsimp only at hread
    split at hread
    · cases hread
    · rename_i hk
      exact .inr ⟨(ringRead_eq_some ((ringWf_iff r).mp hr).1).mp hread, hne, by simpa using hk⟩

/-- The write of a valid frame above the front keeps the ring law: what would lie 65,536 or more behind is skipped or
overwritten (R7, R10). -/
theorem Port.RingLaw.written {x : Port} {f : LineFrame} (h : x.RingLaw) (hf : f.Valid)
    (habove : above x.front f.index = true) : (x.written f).RingLaw := by
  have hform : ringWf (x.written f).ring = true := ringWf_ringWrite h.form hf.index hf.some hf.few
  refine ⟨hform, ?_, ?_⟩
  · rintro ⟨q, c⟩ hc
    refine ⟨f.index, rfl, ?_⟩
    cases hg : x.front with
    | none =>
      have hnew : c.tag = f.index := by
        simp only [Port.written, hg, h.ring_nil hg, ringWrite, ringEmptySkipped, ringPut, List.mem_singleton] at hc
        cases hc
        rfl
      simp only [hnew, Config.ringDepth]
      omega
    | some g =>
      have hlt : g < f.index := by simpa [above, hg] using habove
      simp only [Port.written, hg] at hc hform
      rcases mem_ringWrite h.form hc hform with hnew | ⟨hold, hne, hkept⟩
      · simp only [hnew, Config.ringDepth]
        omega
      · obtain ⟨g', hg', hle, hnear⟩ := h.behind _ hold
        obtain rfl : g = g' := by simpa [hg] using hg'
        obtain ⟨hq, hpos, -, -, -⟩ := ((ringWf_iff x.ring).mp h.form).2 _ hold
        have hnotSkipped : ¬ ∃ j, g < j ∧ j < f.index ∧ ringPosition j = q := by
          rw [← skips_iff hq]
          simp [hkept]
        have hround : ringPosition (c.tag + 65536) = q := by
          have hq' : q = ringPosition c.tag := hpos
          simp [hq', ringPosition]
        have hnotNext : c.tag + 65536 ≠ f.index := fun e => hne (e ▸ hround)
        have hnotPast : ¬ c.tag + 65536 < f.index := fun e => hnotSkipped ⟨_, hnear, e, hround⟩
        simp only [Config.ringDepth]
        dsimp only at hle
        omega
  · intro g hg
    cases hg
    exact hf.index

/-! ### The state law -/

/-- An increment stops within the width of the counts (R19). -/
theorem countUp_le (n : Nat) : countUp n ≤ Config.countLimit := by
  unfold countUp
  split <;> omega

theorem countUp_eq_min (n : Nat) : countUp n = min (n + 1) 65535 := by
  unfold countUp
  simp only [Config.countLimit]
  split <;> omega

section
variable {x : Port}

theorem Port.StateLaw.enterWaking (h : x.StateLaw) (d : SampleInterval) : (x.enterWaking d).StateLaw := by
  constructor <;> simp [Port.enterWaking, Port.quietened, Port.delivering, h.retries]

theorem Port.StateLaw.enterLocked (h : x.StateLaw) (hfront : x.front.isSome = true) : x.enterLocked.StateLaw := by
  constructor <;> simp [Port.enterLocked, Port.quietened, Port.delivering, hfront, h.retries, h.slips]

theorem Port.StateLaw.enterSlipped (h : x.StateLaw) (hlocked : x.state = .locked) :
    ({ x.enterSlipped with slipCount := countUp x.slipCount } : Port).StateLaw := by
  have hfront : x.front.isSome = true := h.front (by simp [Port.delivering, hlocked])
  constructor <;> simp [Port.enterSlipped, Port.quietened, Port.delivering, hfront, h.retries, countUp_le]

theorem Port.StateLaw.enterDraining (h : x.StateLaw) : x.enterDraining.StateLaw := by
  constructor <;> simp [Port.enterDraining, Port.quietened, Port.delivering, h.retries, h.slips]

theorem Port.StateLaw.enterFault (h : x.StateLaw) : x.enterFault.StateLaw := by
  constructor <;> simp [Port.enterFault, Port.quietened, Port.delivering, h.retries, h.slips]

theorem Port.StateLaw.enterRetryWait (h : x.StateLaw) : x.enterRetryWait.StateLaw := by
  constructor <;> simp [Port.enterRetryWait, Port.quietened, Port.delivering, countUp_le, h.slips]

theorem Port.StateLaw.enterParked (h : x.StateLaw) : x.enterParked.StateLaw := by
  constructor <;> simp [Port.enterParked, Port.quietened, Port.delivering, h.retries, h.slips]

theorem Port.StateLaw.lineReset (x : Port) : x.lineReset.StateLaw := by
  constructor <;> simp [Port.lineReset, Port.quietened, Port.delivering]

/-- The retries an LNACT clears are no part of the activation state (R24). -/
theorem Port.StateLaw.clearRetries (h : x.StateLaw) : ({ x with retriesUsed := 0 } : Port).StateLaw :=
  { h with retries := Nat.zero_le _ }

/-- A parked port runs no timer, so LNCONF leaves none running in OFF (R37). -/
theorem Port.StateLaw.confirm (h : x.StateLaw) (hparked : x.state = .parked) :
    ({ x with state := .off } : Port).StateLaw := by
  obtain ⟨wake, absence, slip, retry, silence, drain, candidate, chain, front, slips, retries⟩ := h
  rw [hparked] at wake absence slip retry silence drain candidate chain
  constructor <;> simp_all [Port.delivering]

/-- A written frame gives a front (R7). -/
theorem Port.StateLaw.written (h : x.StateLaw) (f : LineFrame) : (x.written f).StateLaw :=
  { h with front := fun _ => rfl }

theorem Port.StateLaw.setCandidate (h : x.StateLaw) (hwaking : x.state = .waking) (c : Option Nat) :
    ({ x with candidate := c } : Port).StateLaw :=
  { h with candidate := fun _ => hwaking }

theorem Port.StateLaw.setChain (h : x.StateLaw) (hslipped : x.state = .slipped) (b : Bool) :
    ({ x with chain := b } : Port).StateLaw :=
  { h with chain := fun _ => hslipped }

theorem Port.StateLaw.restartAbsence (h : x.StateLaw) (hlocked : x.state = .locked) (n : Nat) :
    ({ x with absenceTimer := some n } : Port).StateLaw :=
  { h with absence := by simp [hlocked] }

theorem Port.StateLaw.restartSilence (h : x.StateLaw) (hdraining : x.state = .draining) (n : Nat) :
    ({ x with silenceTimer := some n } : Port).StateLaw :=
  { h with silence := by simp [hdraining] }

theorem Port.StateLaw.setPolicy (h : x.StateLaw) (pol : LinePolicy) : ({ x with policy := pol } : Port).StateLaw :=
  { h with }

/-- The state in which each cause of fault handling arises (R26, R29, R31). -/
def FaultCause.arisesIn : FaultCause → PortState → Prop
  | .noWake, st => st = .waking
  | .slipCount, _ => True
  | .slipTime, st => st = .slipped

/-- The check armed again under REPORT is one of the state the port is in (R34). -/
theorem Port.StateLaw.rearm (h : x.StateLaw) {c : FaultCause} (hc : c.arisesIn x.state) : (x.rearm c).StateLaw := by
  cases c with
  | noWake => exact { h with wake := by simpa [Port.rearm, FaultCause.arisesIn] using hc }
  | slipCount => exact { h with slips := Nat.zero_le _ }
  | slipTime => exact { h with slip := by simpa [Port.rearm, FaultCause.arisesIn] using hc }

end

end Sys2Proof.Machine
end

section
/-! Everything a step can do, said once: a reset, or a run of changes each of which the laws of every moment survive. -/

namespace Sys2Proof.Machine

/-! ### Entries and stacks found by their tags -/

theorem State.findSweep_eq_some {s : State} {t : Nat} {e : SweepEntry} (h : s.findSweep t = some e) :
    e ∈ s.sweeps ∧ e.tag = t :=
  ⟨List.mem_of_find?_eq_some h, by simpa using List.find?_some h⟩

theorem State.findStack_eq_some {s : State} {vp : Nat} {k : Stack} (h : s.findStack vp = some k) :
    k ∈ s.stackTable ∧ k.settings.vp = vp :=
  ⟨List.mem_of_find?_eq_some h, by simpa using List.find?_some h⟩

theorem earliestStart_mem {l : List SweepEntry} {e : SweepEntry} (h : earliestStart l = some e) : e ∈ l := by
  induction l generalizing e with
  | nil => cases h
  | cons x xs ih =>
    unfold earliestStart at h
    cases hx : earliestStart xs with
    | none =>
      rw [hx] at h
      cases h
      exact List.mem_cons_self
    | some f =>
      rw [hx] at h
      dsimp only at h
      split at h
      · cases h
        exact List.mem_cons_of_mem _ (ih hx)
      · cases h
        exact List.mem_cons_self

theorem State.nextReady_eq_some {s : State} {e : SweepEntry} (h : s.nextReady = some e) :
    e ∈ s.sweeps ∧ e.state = .ready := by
  simpa using earliestStart_mem h

theorem State.idleLane_eq_some {s : State} {l : Fin 4} (h : s.idleLane = some l) : s.lanes[l].state = .idle := by
  simpa using List.find?_some h

/-! ### What a merge overwrites need not be written before it -/

theorem State.offerSweep_setSweeps (s : State) (w : List SweepEntry) (e : SweepEntry) (l : Lane) (d : Disposition)
    (q : Option QcRecord) :
    State.offerSweep { s with sweeps := w } e l d q = { s.offerSweep e l d q with sweeps := w } := by
  unfold State.offerSweep
  cases hk : s.findStack e.vp with
  | none =>
    rw [show State.findStack { s with sweeps := w } e.vp = none from hk]
  | some k =>
    rw [show State.findStack { s with sweeps := w } e.vp = some k from hk]
    dsimp only
    split_ifs
    · unfold State.append State.post
      dsimp only
      split_ifs <;> rfl
    · unfold State.post
      dsimp only
      split_ifs <;> rfl
    · unfold State.post
      dsimp only
      split_ifs <;> rfl
    · rfl

theorem State.offerSweep_setLanes (s : State) (v : Vector Lane 4) (e : SweepEntry) (l : Lane) (d : Disposition)
    (q : Option QcRecord) :
    State.offerSweep { s with lanes := v } e l d q = { s.offerSweep e l d q with lanes := v } := by
  unfold State.offerSweep
  cases hk : s.findStack e.vp with
  | none =>
    rw [show State.findStack { s with lanes := v } e.vp = none from hk]
  | some k =>
    rw [show State.findStack { s with lanes := v } e.vp = some k from hk]
    dsimp only
    split_ifs
    · unfold State.append State.post
      dsimp only
      split_ifs <;> rfl
    · unfold State.post
      dsimp only
      split_ifs <;> rfl
    · unfold State.post
      dsimp only
      split_ifs <;> rfl
    · rfl

/-- The parts of a merge with the entry's leaving as one update (R72). -/
theorem State.mergeSweep_eq (s : State) (e : SweepEntry) (l : Lane) (d : Disposition) :
    s.mergeSweep e l d =
      (((((s.updStack e.vp fun k => k.mergeSweep e l.result).offerSweep e l d e.qc).withoutSweep e).post
        (.swMerged e.tag e.vp e.number)).completionTest e.vp) := by
  unfold State.mergeSweep
  rw [State.leave_merge]

/-- The parts of an abort with the entry's leaving as one update (R74). -/
theorem State.abortSweep_eq (s : State) (e : SweepEntry) {why : AbortReason} (h : why ≠ .discarded) :
    s.abortSweep e why =
      (((((s.offerAborted e why).withoutSweep e).post (.swAbort e.tag e.vp e.number why.cause)).route e why).completionTest
        e.vp) := by
  unfold State.abortSweep
  rw [State.leave_abort, if_neg h]

/-- The entries with the tag leave at the merge, whatever they hold. -/
theorem State.mergeSweep_updSweep (s : State) (e : SweepEntry) (l : Lane) (d : Disposition)
    (f : SweepEntry → SweepEntry) (hf : ∀ x, (f x).tag = x.tag) :
    (s.updSweep e.tag f).mergeSweep e l d = s.mergeSweep e l d := by
  have hoffer : ((s.updSweep e.tag f).updStack e.vp fun k => k.mergeSweep e l.result).offerSweep e l d e.qc =
      { (s.updStack e.vp fun k => k.mergeSweep e l.result).offerSweep e l d e.qc with
        sweeps := s.sweeps.map fun x => if x.tag = e.tag then f x else x } :=
    State.offerSweep_setSweeps (s.updStack e.vp fun k => k.mergeSweep e l.result) _ e l d e.qc
  have hleave : (s.sweeps.map fun x => if x.tag = e.tag then f x else x).filter (fun x => x.tag != e.tag) =
      s.sweeps.filter fun x => x.tag != e.tag := by
    induction s.sweeps with
    | nil => rfl
    | cons x xs ih =>
      by_cases hx : x.tag = e.tag
      · simp [hx, hf, ih]
      · simp [hx, ih]
  have hwithout : ∀ (x : State) (w : List SweepEntry), State.withoutSweep { x with sweeps := w } e =
      { x.withoutSweep e with sweeps := w.filter fun y => y.tag != e.tag } := fun _ _ => rfl
  rw [State.mergeSweep_eq, State.mergeSweep_eq, hoffer, hwithout, hleave]
  congr 2
  simp [State.withoutSweep]

/-- The entry's lane is freed at the merge, whatever it holds. -/
theorem State.mergeSweep_setLane (s : State) (e : SweepEntry) (l : Fin 4) (x y : Lane) (d : Disposition)
    (hl : e.lane = some l) : (s.setLane l x).mergeSweep e y d = s.mergeSweep e y d := by
  have hoffer : ((s.setLane l x).updStack e.vp fun k => k.mergeSweep e y.result).offerSweep e y d e.qc =
      { (s.updStack e.vp fun k => k.mergeSweep e y.result).offerSweep e y d e.qc with lanes := s.lanes.set l x } :=
    State.offerSweep_setLanes (s.updStack e.vp fun k => k.mergeSweep e y.result) _ e y d e.qc
  have hwithout : ∀ (z : State) (v : Vector Lane 4), State.withoutSweep { z with lanes := v } e =
      { z.withoutSweep e with lanes := freedLanes v e.lane } := fun _ _ => rfl
  have hfree : freedLanes (s.lanes.set l x) e.lane = freedLanes s.lanes e.lane := by
    simp [freedLanes, hl]
  rw [State.mergeSweep_eq, State.mergeSweep_eq, hoffer, hwithout, hfree]
  congr 2
  simp [State.withoutSweep]

/-! ### Changes -/

/-- What every change of the command port keeps outside a full reset: the capacity of the input queue (R171), and that the
initialization interval does not run (R182). -/
structure CommandPort.Keeps (c c' : CommandPort) : Prop where
  requests : c.inputQueue.length ≤ Config.inputLimit → c'.inputQueue.length ≤ Config.inputLimit
  outside : c.initInterval = false → c'.initInterval = false

/-- The capacity of the notice list, and what a set overflow flag says of it (R187). -/
structure NoticeQueue.Bounded (q : NoticeQueue) : Prop where
  notices : q.notices.length ≤ Config.noticeLimit
  overflow : q.overflow = true → q.notices.length = Config.noticeLimit

/-- The same sweep, whatever its state, lane, record and timer. -/
structure SweepEntry.Same (e x : SweepEntry) : Prop where
  tag : e.tag = x.tag
  vp : e.vp = x.vp
  number : e.number = x.number
  start : e.start = x.start
  length : e.length = x.length
  reference : e.reference = x.reference
  windowEnd : e.windowEnd = x.windowEnd

/-- One change of the part that every law of every moment survives. The proposition says whether the sweep tags were distinct
at the start of the step, so that an entry to be aborted is still listed. -/
inductive Change (distinct : Prop) : State → State → Prop
  | settings (s : State) (channels : Vector ChannelEntry 480) (interval : SampleInterval) (qcPolicy : QcPolicy) :
    Change distinct s { s with channels := channels, interval := interval, qcPolicy := qcPolicy }
  | command (s : State) (c : CommandPort) (pending : List Instr) (h : s.cmd.Keeps c) :
    Change distinct s { s with cmd := c, pending := pending }
  | notices (s : State) (q : NoticeQueue) (h : s.nq.Bounded → q.Bounded) : Change distinct s { s with nq := q }
  | port (s : State) (p : Fin 4) (x : Port) (hring : s.ports[p].RingLaw → x.RingLaw)
    (hstate : s.ports[p].StateLaw → x.StateLaw) : Change distinct s { s with ports := s.ports.set p x }
  | readied (s : State) : Change distinct s s.readinessAll
  | slot (s : State) (i : Fin 8) (x : RefSlot) (hfree : s.slots[i].state ≠ .ready ∨ s.slots[i].useCount = 0)
    (hheld : s.slots[i].Held → x.Held) (hcount : s.slots[i].useCount = 0 → x.useCount = 0) :
    Change distinct s { s with slots := s.slots.set i x }
  | announced (s : State) (p : List Byte) (a : Announcement) (k : Stack) (hread : readAnnouncement p = some a)
    (hcheck : announceCheck s a = .ok k) : Change distinct s (announce s a k)
  | aborted (s : State) (e : SweepEntry) (why : AbortReason) (he : distinct → e ∈ s.sweeps) (hwhy : why ≠ .discarded) :
    Change distinct s (s.abortSweep e why)
  | granted (s : State) (e : SweepEntry) (k : Stack) (l : Fin 4) (r : List RefSample) (clips : Nat) (he : e ∈ s.sweeps)
    (hready : e.state = .ready) (hidle : s.lanes[l].state = .idle) (hk : s.findStack e.vp = some k) :
    Change distinct s ((s.updSweep e.tag fun x => x.grantedTo l).setLane l (s.grantedLane e k.settings r clips))
  | waits (s : State) (e : SweepEntry) (l : Fin 4) (limit : Nat) (he : e ∈ s.sweeps)
    (hrunning : s.lanes[l].state = .correlating) (hheld : s.lanes[l].held = some e.tag) (hqc : e.qc = none) :
    Change distinct s ((s.setLane l { s.lanes[l] with state := .qcWait, result := s.lanes[l].jobResult }).updSweep e.tag
      fun x => { x with state := .qcWait, qcTimer := some limit })
  | merged (s : State) (e x : SweepEntry) (l : Fin 4) (y : Lane) (d : Disposition) (hx : x ∈ s.sweeps) (hsame : e.Same x)
    (hlane : e.lane = some l)
    (hheld : (s.lanes[l].state = .correlating ∧ s.lanes[l].held = some x.tag ∧ y.result = s.lanes[l].jobResult) ∨
      (x.state = .qcWait ∧ x.lane = some l ∧ y.result = s.lanes[l].result)) :
    Change distinct s (s.mergeSweep e y d)
  | stored (s : State) (e : SweepEntry) (r : QcRecord) (he : e ∈ s.sweeps) (hplace : e.state ≠ .qcWait ∨ e.lane = none)
    (hverdict : r.verdict = .pass ∨ r.verdict = .note) :
    Change distinct s (s.updSweep e.tag fun x => { x with qc := some r })
  | blocks (s : State) (position effective pendingBlock : Nat) :
    Change distinct s
      { s with
        oq := { s.oq with readPosition := position, effectiveBlock := effective, pendingBlock := pendingBlock } }
  | released (s : State) (r : OutRecord) (rest : List OutRecord) (h : s.oq.records = r :: rest) :
    Change distinct s (State.serve { s with oq := { s.oq with records := rest, readPosition := 0 } })
  | closed (s : State) (vp : Nat) (k : Stack) (hk : s.findStack vp = some k) (hopen : k.state = .opened) :
    Change distinct s ((s.updStack vp fun k => { k with state := .closing }).completionTest vp)
  | engineReset (s : State) : Change distinct s s.engineReset

/-- One change of the stack table that needs the sweep map law: a stack joins it or leaves it. -/
inductive TableChange : State → State → Prop
  | opened (s : State) (p : List Byte) (k : StackSettings) (hread : readStackSettings p = some k)
    (hroom : s.stackTable.length < Config.stackLimit) (hnew : s.findStack k.vp = none) :
    TableChange s { s with stackTable := s.stackTable ++ [Stack.new k] }
  | discarded (s : State) (vp : Nat) (k : Stack) (hk : s.findStack vp = some k) : TableChange s (s.discardStack k)
  | finalized (s : State) (vp : Nat) (k : Stack) (hk : s.findStack vp = some k) (hstate : k.state = .finalizing) :
    TableChange s (s.finalize k)

/-- A run of changes. -/
abbrev Changes (distinct : Prop) : State → State → Prop := Relation.ReflTransGen (Change distinct)

/-- A run of changes, or one of the stack table with a run after it. Nothing but the command port and the queue of commands
changes before a change of the stack table. -/
def Reaches (distinct : Prop) (s t : State) : Prop :=
  Changes distinct s t ∨
    ∃ (c : CommandPort) (pending : List Instr) (v : State), s.cmd.Keeps c ∧
      TableChange { s with cmd := c, pending := pending } v ∧ Changes distinct v t

theorem CommandPort.Keeps.refl (c : CommandPort) : c.Keeps c := ⟨id, id⟩

theorem CommandPort.Keeps.trans {a b c : CommandPort} (h : a.Keeps b) (h' : b.Keeps c) : a.Keeps c :=
  ⟨h'.requests ∘ h.requests, h'.outside ∘ h.outside⟩

section
variable {D : Prop} {s t u : State}

theorem Change.single (h : Change D s t) : Changes D s t := Relation.ReflTransGen.single h

theorem Changes.same (s : State) : Changes D s s := Relation.ReflTransGen.refl

theorem Changes.reaches (h : Changes D s t) : Reaches D s t := .inl h

theorem Reaches.same (s : State) : Reaches D s s := (Changes.same s).reaches

theorem Reaches.then (h : Reaches D s t) (h' : Changes D t u) : Reaches D s u := by
  obtain hrun | ⟨c, pending, v, hc, htable, hrun⟩ := h
  · exact .inl (hrun.trans h')
  · exact .inr ⟨c, pending, v, hc, htable, hrun.trans h'⟩

theorem TableChange.reaches (h : TableChange s t) : Reaches D s t :=
  .inr ⟨s.cmd, s.pending, t, .refl _, h, Changes.same t⟩

/-- A change of the command port and the queue of commands may come first. -/
theorem Reaches.after_command {c : CommandPort} {pending : List Instr} (hc : s.cmd.Keeps c)
    (h : Reaches D { s with cmd := c, pending := pending } t) : Reaches D s t := by
  obtain hrun | ⟨c', pending', v, hc', htable, hrun⟩ := h
  · exact .inl (Relation.ReflTransGen.head (.command s c pending hc) hrun)
  · exact .inr ⟨c', pending', v, hc.trans hc', htable, hrun⟩

/-! ### Notices and the command port -/

theorem NoticeQueue.Bounded.post {s : State} (b : NoticeBody) (h : s.nq.Bounded) : (s.post b).nq.Bounded := by
  obtain ⟨hroom, hpost⟩ | ⟨hfull, hpost⟩ := s.post_cases b
  · rw [hpost]
    refine ⟨?_, fun hover => ?_⟩
    · simpa using hroom
    · exact absurd (h.overflow hover) (by omega)
  · rw [hpost]
    exact ⟨h.notices, fun _ => le_antisymm h.notices hfull⟩

theorem State.post_setNq (s : State) (b : NoticeBody) : s.post b = { s with nq := (s.post b).nq } := by
  obtain ⟨-, hpost⟩ | ⟨-, hpost⟩ := s.post_cases b <;> rw [hpost]

theorem change_post (s : State) (b : NoticeBody) : Change D s (s.post b) := by
  rw [s.post_setNq b]
  exact .notices s _ (NoticeQueue.Bounded.post b)

/-- A state that differs in the command port alone, which keeps what it must. -/
theorem changes_cmd {c : CommandPort} (ht : t = { s with cmd := c }) (h : s.cmd.Keeps c) : Changes D s t := by
  rw [ht]
  exact (Change.command s c s.pending h).single

theorem dequeue_keeps (s : State) : s.cmd.Keeps s.dequeue.cmd :=
  ⟨fun h => by simp only [State.dequeue_cmd, List.length_tail]; omega, id⟩

theorem changes_conclude (r : Request) (rep : Reply) : Changes D rep.state (State.conclude r rep) := by
  obtain ⟨-, h⟩ | ⟨-, -, h⟩ | ⟨-, -, h⟩ := State.conclude_cases r rep
  · rw [h]
    exact changes_cmd rfl ⟨id, id⟩
  · rw [h]
  · rw [h]
    exact (change_post _ _).single

/-- A taking reaches what its owner reaches from the dequeued state. -/
theorem reaches_take (r : Request) (owner : State → Reply) (s : State)
    (howner : Reaches D s.dequeue (owner s.dequeue).state) : Reaches D s (s.take r owner) := by
  have hdequeue : ∀ {t}, Reaches D s.dequeue t → Reaches D s t := Reaches.after_command (dequeue_keeps s)
  obtain ⟨-, h⟩ | ⟨-, -, h⟩ | ⟨-, -, h⟩ := State.take_cases r owner s
  · rw [h]
    exact Reaches.same s
  · rw [h]
    exact hdequeue ((Reaches.same _).then (changes_conclude r (refuse s.dequeue .badLen)))
  · rw [h]
    exact hdequeue (howner.then (changes_conclude r _))

theorem reaches_takeUnknown (r : Request) (s : State) : Reaches D s (s.takeUnknown r) := by
  unfold State.takeUnknown
  split
  · exact Reaches.after_command (dequeue_keeps s) (changes_conclude r (refuse s.dequeue .unknown)).reaches
  · exact Reaches.same s

theorem changes_dispose (frame : List Byte) (ak : AddressKind) (s : State) : Changes D s (s.dispose frame ak) := by
  unfold State.dispose
  dsimp only
  split_ifs with hbad hmute hfull
  · exact Changes.same s
  · exact (change_post s _).single
  · exact (change_post s _).single
  · refine changes_cmd rfl ⟨fun _ => ?_, id⟩
    simp only [List.length_append, List.length_singleton]
    omega

theorem changes_deselect (s : State) : Changes D s s.deselect := changes_cmd rfl ⟨id, id⟩

theorem changes_assemble (frame : List Byte) (ak : AddressKind) (s : State) : Changes D s (s.assemble frame ak) := by
  unfold State.assemble
  split_ifs
  · exact changes_cmd rfl ⟨id, id⟩
  · exact changes_deselect s
  · exact changes_cmd rfl ⟨id, id⟩
  · exact (changes_deselect s).trans (changes_dispose frame ak _)

theorem changes_unmarked (b : Byte) (s : State) : Changes D s (s.unmarked b) := by
  unfold State.unmarked
  split
  · exact Changes.same s
  · split
    · exact Changes.same s
    · exact changes_assemble _ _ s
    · exact changes_assemble _ _ s

theorem changes_unmarkedRun (bs : List Byte) (s : State) : Changes D s (s.unmarkedRun bs) := by
  induction bs generalizing s with
  | nil => exact Changes.same s
  | cons b bs ih => exact (changes_unmarked b s).trans (ih _)

theorem changes_marked (v : Byte) (s : State) : Changes D s (s.marked v) := by
  unfold State.marked
  split_ifs
  · exact changes_cmd rfl ⟨id, id⟩
  · exact changes_cmd rfl ⟨id, id⟩
  · exact changes_deselect s

/-! ### Ports -/

theorem change_updPort (s : State) (p : Fin 4) (f : Port → Port) (hring : s.ports[p].RingLaw → (f s.ports[p]).RingLaw)
    (hstate : s.ports[p].StateLaw → (f s.ports[p]).StateLaw) : Change D s (s.updPort p f) :=
  .port s p _ hring hstate

theorem changes_overrun (l : List SweepEntry) (s : State)
    (h : D → (l.map (·.tag)).Nodup ∧ ∀ e ∈ l, e ∈ s.sweeps) :
    Changes D s (l.foldl (fun s e => s.abortSweep e .overrun) s) := by
  induction l generalizing s with
  | nil => exact Changes.same s
  | cons e l ih =>
    refine Relation.ReflTransGen.head (.aborted s e .overrun (fun hd => (h hd).2 e (by simp)) (by simp)) (ih _ ?_)
    intro hd
    obtain ⟨hnodup, hlisted⟩ := h hd
    obtain ⟨hfresh, hnodup⟩ := List.nodup_cons.mp hnodup
    refine ⟨hnodup, fun x hx => ?_⟩
    have hne : x.tag ≠ e.tag := fun heq => hfresh (List.mem_map.mpr ⟨x, hx, heq⟩)
    simp [hlisted x (by simp [hx]), hne]

theorem changes_overrunTest (i : Nat) (s : State) (h : D → (s.sweeps.map (·.tag)).Nodup) :
    Changes D s (s.overrunTest i) :=
  changes_overrun _ s fun hd => ⟨(h hd).sublist (List.filter_sublist.map _), fun _ he => (List.mem_filter.mp he).1⟩

theorem readinessAll_tags (s : State) : s.readinessAll.sweeps.map (·.tag) = s.sweeps.map (·.tag) := by
  simp [State.readinessAll, Function.comp_def]

theorem changes_handOff (before : State) (p : Fin 4) (w : Option Nat) (s : State)
    (h : D → (s.sweeps.map (·.tag)).Nodup) : Changes D s (s.handOff before p w) := by
  cases w with
  | none =>
    by_cases hsame : s.ports[p].state = before.ports[p].state
    · rw [State.handOff_same _ _ _ hsame]
    · rw [State.handOff_moved _ _ _ hsame]
      exact (Change.readied s).single
  | some i =>
    rw [State.handOff_written]
    refine Relation.ReflTransGen.head (.readied s) (changes_overrunTest i _ fun hd => ?_)
    rw [readinessAll_tags]
    exact h hd

/-- An operation on a port that keeps the sweep list, and its hand-off. -/
theorem changes_portEvent {p : Fin 4} {after : State × Option Nat} (hrun : Changes D s after.1)
    (hsweeps : after.1.sweeps = s.sweeps) (h : D → (s.sweeps.map (·.tag)).Nodup) :
    Changes D s (s.portEvent p after) :=
  hrun.trans (changes_handOff s p after.2 _ (hsweeps ▸ h))

@[simp] theorem State.handleFault_sweeps (s : State) (p : Fin 4) (c : FaultCause) :
    (s.handleFault p c).sweeps = s.sweeps := by
  unfold State.handleFault State.faultLatch State.faultRetry State.faultReport
  split
  · simp
  · split <;> simp
  · simp

theorem changes_faultLatch (p : Fin 4) (c : FaultCause) (s : State) : Changes D s (s.faultLatch p c) :=
  ((change_updPort s p _ (·.congr rfl rfl) (·.enterFault)).single).tail (change_post _ _)

theorem changes_handleFault (p : Fin 4) (c : FaultCause) (s : State) (hc : c.arisesIn s.ports[p].state) :
    Changes D s (s.handleFault p c) := by
  unfold State.handleFault
  split
  · exact changes_faultLatch p c s
  · split
    · exact ((change_updPort s p _ (·.congr rfl rfl) (·.enterRetryWait)).single).tail (change_post _ _)
    · exact changes_faultLatch p c s
  · refine ((change_updPort s p _ (·.congr ?_ ?_) (·.rearm hc)).single).tail (change_post _ _)
    · cases c <;> rfl
    · cases c <;> rfl

theorem changes_slipThresholdTest (p : Fin 4) (s : State) : Changes D s (s.slipThresholdTest p) := by
  unfold State.slipThresholdTest
  dsimp only
  split
  · exact changes_handleFault p .slipCount s trivial
  · exact Changes.same s

@[simp] theorem State.slipThresholdTest_sweeps (s : State) (p : Fin 4) : (s.slipThresholdTest p).sweeps = s.sweeps := by
  unfold State.slipThresholdTest
  dsimp only
  split <;> simp

theorem changes_slip (p : Fin 4) (s : State) (h : s.ports[p].state = .locked) : Changes D s (s.slip p) :=
  ((change_updPort s p _ (·.congr rfl rfl) (·.enterSlipped h)).single).tail (change_post _ _)

theorem change_writeFrame (p : Fin 4) {f : LineFrame} (s : State) (hf : f.Valid)
    (habove : above s.ports[p].front f.index = true) : Change D s (s.writeFrame p f.index f.samples) :=
  change_updPort s p _ (·.written hf habove) (·.written f)

theorem follows_above {front : Option Nat} {i : Nat} (h : follows front i = true) : above front i = true := by
  cases front with
  | none => rfl
  | some f =>
    simp only [follows, beq_iff_eq] at h
    simp [above, h]

theorem slip_port (s : State) (p : Fin 4) :
    (s.slip p).ports[p] = { s.ports[p].enterSlipped with slipCount := countUp s.ports[p].slipCount } := by
  rw [State.slip, State.post_ports, State.updPort_same]

theorem changes_slipEvent (p : Fin 4) (frame : Option LineFrame) (s : State) (h : s.ports[p].state = .locked)
    (hf : ∀ f, frame = some f → f.Valid) :
    Changes D s (s.slipEvent p frame).1 ∧ (s.slipEvent p frame).1.sweeps = s.sweeps := by
  have hplain : Changes D s ((s.slip p).slipThresholdTest p) ∧ ((s.slip p).slipThresholdTest p).sweeps = s.sweeps :=
    ⟨(changes_slip p s h).trans (changes_slipThresholdTest p _), by simp [State.slip]⟩
  unfold State.slipEvent
  cases frame with
  | none => exact hplain
  | some f =>
    dsimp only
    split
    · rename_i habove
      refine ⟨?_, by simp [State.slip]⟩
      refine Relation.ReflTransGen.trans (((changes_slip p s h).tail (change_writeFrame p _ (hf f rfl) ?above)).tail
        (change_updPort _ p _ (·.congr rfl rfl) (·.setChain ?slipped true))) (changes_slipThresholdTest p _)
      case above =>
        rw [slip_port]
        exact habove
      case slipped =>
        rw [State.writeFrame, State.updPort_same, slip_port]
        rfl
    · exact hplain

theorem changes_wakingFrame (p : Fin 4) (frame : Option LineFrame) (s : State) (h : s.ports[p].state = .waking)
    (hf : ∀ f, frame = some f → f.Valid) :
    Changes D s (s.wakingFrame p frame).1 ∧ (s.wakingFrame p frame).1.sweeps = s.sweeps := by
  have hcandidate : ∀ c : Option Nat, Changes D s (s.updPort p fun x => { x with candidate := c }) ∧
      (s.updPort p fun x => { x with candidate := c }).sweeps = s.sweeps :=
    fun c => ⟨(change_updPort s p _ (·.congr rfl rfl) (·.setCandidate h c)).single, rfl⟩
  unfold State.wakingFrame
  cases frame with
  | none => exact hcandidate none
  | some f =>
    dsimp only
    split_ifs with habove
    · refine ⟨((change_writeFrame p s (hf f rfl) habove).single.tail
        (change_updPort _ p _ (·.congr rfl rfl) (·.enterLocked ?front))).tail (change_post _ _), by simp⟩
      case front =>
        rw [State.writeFrame, State.updPort_same]
        rfl
    · exact hcandidate _
    · exact hcandidate none

theorem changes_lockedFrame (p : Fin 4) (frame : Option LineFrame) (s : State) (h : s.ports[p].state = .locked)
    (hf : ∀ f, frame = some f → f.Valid) :
    Changes D s (s.lockedFrame p frame).1 ∧ (s.lockedFrame p frame).1.sweeps = s.sweeps := by
  unfold State.lockedFrame
  cases frame with
  | none => exact changes_slipEvent p none s h hf
  | some f =>
    dsimp only
    split
    · rename_i hfollows
      have hlocked : (s.writeFrame p f.index f.samples).ports[p].state = .locked := by
        rw [State.writeFrame, State.updPort_same]
        exact h
      have hrestart : Change D (s.writeFrame p f.index f.samples) _ :=
        change_updPort _ p (fun x => { x with absenceTimer := some (absenceMs x.wakeInterval) }) (·.congr rfl rfl)
          (·.restartAbsence hlocked _)
      exact ⟨(change_writeFrame p s (hf f rfl) (follows_above hfollows)).single.tail hrestart, rfl⟩
    · exact changes_slipEvent p _ s h hf

theorem changes_slippedFrame (p : Fin 4) (frame : Option LineFrame) (s : State) (h : s.ports[p].state = .slipped)
    (hf : ∀ f, frame = some f → f.Valid) :
    Changes D s (s.slippedFrame p frame).1 ∧ (s.slippedFrame p frame).1.sweeps = s.sweeps := by
  have hchain : ∀ b : Bool, Changes D s (s.updPort p fun x => { x with chain := b }) ∧
      (s.updPort p fun x => { x with chain := b }).sweeps = s.sweeps :=
    fun b => ⟨(change_updPort s p _ (·.congr rfl rfl) (·.setChain h b)).single, rfl⟩
  unfold State.slippedFrame
  cases frame with
  | none => exact hchain false
  | some f =>
    dsimp only
    split_ifs with habove
    · refine ⟨((change_writeFrame p s (hf f rfl) habove).single.tail
        (change_updPort _ p _ (·.congr rfl rfl) (·.enterLocked ?front))).tail (change_post _ _), by simp⟩
      case front =>
        rw [State.writeFrame, State.updPort_same]
        rfl
    · have hslipped : (s.writeFrame p f.index f.samples).ports[p].state = .slipped := by
        rw [State.writeFrame, State.updPort_same]
        exact h
      have hset : Change D (s.writeFrame p f.index f.samples) _ :=
        change_updPort _ p (fun x => { x with chain := true }) (·.congr rfl rfl) (·.setChain hslipped true)
      exact ⟨(change_writeFrame p s (hf f rfl) habove).single.tail hset, rfl⟩
    · exact hchain false

theorem changes_portFrame (p : Fin 4) (frame : Option LineFrame) (s : State) (hf : ∀ f, frame = some f → f.Valid) :
    Changes D s (s.portFrame p frame).1 ∧ (s.portFrame p frame).1.sweeps = s.sweeps := by
  have hdeaf : Changes D s s ∧ s.sweeps = s.sweeps := ⟨Changes.same s, rfl⟩
  unfold State.portFrame
  split
  · exact hdeaf
  · exact hdeaf
  · exact hdeaf
  · exact hdeaf
  · rename_i hdraining
    have hrestart : Change D s (s.drainingFrame p) :=
      change_updPort s p _ (·.congr rfl rfl) (·.restartSilence hdraining _)
    exact ⟨hrestart.single, rfl⟩
  · exact changes_wakingFrame p frame s (by assumption) hf
  · exact changes_lockedFrame p frame s (by assumption) hf
  · exact changes_slippedFrame p frame s (by assumption) hf

end

end Sys2Proof.Machine
end

section
/-! Everything a step can do, command by command. -/

namespace Sys2Proof.Machine

section
variable {D : Prop} {s t : State}

theorem changes_park (s : State) (p : Fin 4) : Changes D s (s.park p) :=
  ((change_updPort s p _ (·.congr rfl rfl) (·.enterParked)).single).tail (change_post _ _)

/-! ### Requests that change settings, ports and slots -/

theorem changes_settings (s : State) (channels : Vector ChannelEntry 480) (interval : SampleInterval)
    (qcPolicy : QcPolicy) :
    Changes D s { s with channels := channels, interval := interval, qcPolicy := qcPolicy } :=
  (Change.settings s channels interval qcPolicy).single

theorem changes_chmapOwner (p : List Byte) (s : State) : Changes D s (chmapOwner p s).state := by
  unfold chmapOwner
  split
  · exact Changes.same s
  · split_ifs
    · exact Changes.same s
    · exact Changes.same s
    · exact changes_settings s _ s.interval s.qcPolicy
    · exact Changes.same s

theorem changes_chstateOwner (p : List Byte) (s : State) : Changes D s (chstateOwner p s).state := by
  unfold chstateOwner
  split
  · exact Changes.same s
  · split_ifs
    · exact Changes.same s
    · exact Changes.same s
    · exact changes_settings s _ s.interval s.qcPolicy

theorem probeOwner_state (p : List Byte) (s : State) : (probeOwner p s).state = s := by
  unfold probeOwner
  split_ifs <;> rfl

theorem changes_acqsetOwner (p : List Byte) (s : State) : Changes D s (acqsetOwner p s).state := by
  unfold acqsetOwner
  split
  · exact Changes.same s
  · split_ifs
    · exact Changes.same s
    · exact changes_settings s s.channels _ s.qcPolicy
    · exact Changes.same s

theorem changes_qcpolicyOwner (p : List Byte) (s : State) : Changes D s (qcpolicyOwner p s).state := by
  unfold qcpolicyOwner
  split
  · exact Changes.same s
  · exact changes_settings s s.channels s.interval _

theorem changes_onPort (p : List Byte) (s : State) (f : Fin 4 → Reply) (h : ∀ q, Changes D s (f q).state) :
    Changes D s (onPort p s f).state := by
  unfold onPort
  split
  · exact h _
  · exact Changes.same s

/-- A request on a port: one change of the port, handed off. -/
theorem changes_portRequest {p : Fin 4} (s : State) (f : Port → Port)
    (hring : s.ports[p].RingLaw → (f s.ports[p]).RingLaw) (hstate : s.ports[p].StateLaw → (f s.ports[p]).StateLaw)
    (h : D → (s.sweeps.map (·.tag)).Nodup) : Changes D s ((s.updPort p f).handOff s p none) :=
  (change_updPort s p f hring hstate).single.trans (changes_handOff s p none _ h)

theorem changes_lnactAt (s : State) (p : Fin 4) (h : D → (s.sweeps.map (·.tag)).Nodup) :
    Changes D s (lnactAt s p).state := by
  unfold lnactAt
  split
  case h_3 => exact Changes.same s
  case h_1 | h_2 =>
    exact changes_portRequest s _ (·.congr rfl rfl) (fun hx => (hx.enterWaking _).clearRetries) h
  all_goals exact Changes.same s

theorem changes_lndeactAt (s : State) (p : Fin 4) (h : D → (s.sweeps.map (·.tag)).Nodup) :
    Changes D s (lndeactAt s p).state := by
  unfold lndeactAt
  split
  case h_1 | h_2 | h_3 => exact changes_portRequest s _ (·.congr rfl rfl) (·.enterDraining) h
  all_goals exact Changes.same s

theorem changes_lnconfAt (s : State) (p : Fin 4) (h : D → (s.sweeps.map (·.tag)).Nodup) :
    Changes D s (lnconfAt s p).state := by
  unfold lnconfAt
  split
  case h_1 hparked => exact changes_portRequest s _ (·.congr rfl rfl) (·.confirm hparked) h
  all_goals exact Changes.same s

theorem changes_lnresetAt (s : State) (p : Fin 4) (h : D → (s.sweeps.map (·.tag)).Nodup) :
    Changes D s (lnresetAt s p).state :=
  changes_portRequest s _ (·.congr rfl rfl) (fun _ => Port.StateLaw.lineReset _) h

theorem changes_lnpolicyAt (payload : List Byte) (s : State) (p : Fin 4) :
    Changes D s (lnpolicyAt payload s p).state := by
  unfold lnpolicyAt
  split
  · exact Changes.same s
  · rename_i pol _
    exact (change_updPort s p (fun x => { x with policy := pol }) (·.congr rfl rfl) (·.setPolicy pol)).single

@[simp] theorem reported_state (s : State) (i : Fin 8) (r : Result) : (reported s i r).state = s := rfl

theorem changes_onSlot (p : List Byte) (s : State) (f : Fin 8 → Reply) (h : ∀ i, Changes D s (f i).state) :
    Changes D s (onSlot p s f).state := by
  unfold onSlot
  split
  · exact h _
  · exact Changes.same s

/-- A request on a slot that no entry names. -/
theorem changes_updSlot (s : State) (i : Fin 8) (f : RefSlot → RefSlot)
    (hfree : s.slots[i].state ≠ .ready ∨ s.slots[i].useCount = 0) (hheld : s.slots[i].Held → (f s.slots[i]).Held)
    (hcount : s.slots[i].useCount = 0 → (f s.slots[i]).useCount = 0) : Changes D s (s.updSlot i f) :=
  (Change.slot s i _ hfree hheld hcount).single

theorem changes_refopenAt (p : List Byte) (s : State) (i : Fin 8) : Changes D s (refopenAt p s i).state := by
  unfold refopenAt
  split_ifs with hlength hloading hused
  · exact Changes.same s
  · exact Changes.same s
  · exact Changes.same s
  · rw [reported_state]
    refine changes_updSlot s i _ ?_ (fun _ => ?_) id
    · by_cases hready : s.slots[i].state = .ready
      · exact .inr (Nat.eq_zero_of_not_pos fun h => hused ⟨hready, h⟩)
      · exact .inl hready
    · exact ⟨_, rfl, by omega, by omega, Nat.zero_le _⟩

theorem readRefSamples_length (p : List Byte) : (readRefSamples p).length = field p 3 2 := by
  simp [readRefSamples, chunks_length]

theorem changes_refdataAt (p : List Byte) (s : State) (i : Fin 8) : Changes D s (refdataAt p s i).state := by
  unfold refdataAt
  split_ifs with hrange hstate horder hpast
  · exact Changes.same s
  · exact Changes.same s
  · exact Changes.same s
  · exact Changes.same s
  · have hloading : s.slots[i].state = .loading := by simpa using hstate
    rw [reported_state]
    refine changes_updSlot s i _ (.inl (by rw [hloading]; simp)) (fun hheld => ?_) id
    simp only [RefSlot.Held, hloading] at hheld ⊢
    obtain ⟨n, hn, hlow, hhigh, -⟩ := hheld
    refine ⟨n, hn, hlow, hhigh, ?_⟩
    simp only [hn, Option.getD_some, RefSlot.loaded] at hpast horder
    rw [List.length_append, readRefSamples_length]
    omega

theorem changes_refcloseAt (s : State) (i : Fin 8) : Changes D s (refcloseAt s i).state := by
  unfold refcloseAt
  split
  · exact Changes.same s
  · exact Changes.same s
  · rename_i hloading
    split
    · rename_i hfull
      rw [reported_state]
      refine changes_updSlot s i _ (.inl (by rw [hloading]; simp)) (fun hheld => ?_) (fun _ => rfl)
      simp only [RefSlot.Held, hloading] at hheld ⊢
      obtain ⟨n, hn, hlow, hhigh, -⟩ := hheld
      exact ⟨n, hn, hlow, hhigh, Option.some.inj (hfull.symm.trans hn)⟩
    · exact Changes.same s

theorem changes_refclearAt (s : State) (i : Fin 8) : Changes D s (refclearAt s i).state := by
  unfold refclearAt
  split
  · exact Changes.same s
  · rw [reported_state]
    exact changes_updSlot s i _ (.inr (by omega)) (fun _ => ⟨rfl, rfl⟩) (fun _ => rfl)

/-! ### Requests on the sweep list -/

theorem changes_swannOwner (p : List Byte) (s : State) : Changes D s (swannOwner p s).state := by
  unfold swannOwner
  split
  · exact Changes.same s
  · split
    · exact Changes.same s
    · exact (Change.announced s p _ _ (by assumption) (by assumption)).single

theorem changes_swcancelOwner (p : List Byte) (s : State) : Changes D s (swcancelOwner p s).state := by
  unfold swcancelOwner
  split
  · exact Changes.same s
  · split
    · rename_i hfound
      exact (Change.aborted s _ .cancelled (fun _ => (State.findSweep_eq_some hfound).1) (by simp)).single
    · split <;> exact Changes.same s

/-- A verdict of REJECT or RETRY aborts (R107). -/
theorem State.applyVerdict_aborted (s : State) (e : SweepEntry) {r : QcRecord}
    (h : r.verdict = .reject ∨ r.verdict = .retry) : s.applyVerdict e r = (s.abortSweep e (.rejected r), .aborted) := by
  unfold State.applyVerdict
  rw [if_pos h]

/-- A verdict of PASS or NOTE merges a sweep in QCWAIT with its record (R107). -/
theorem State.applyVerdict_merged (s : State) {e : SweepEntry} {r : QcRecord} {l : Fin 4}
    (h : r.verdict = .pass ∨ r.verdict = .note) (hstate : e.state = .qcWait) (hlane : e.lane = some l) :
    s.applyVerdict e r = (s.mergeSweep { e with qc := some r } s.lanes[l] .merged, .merged) := by
  obtain ⟨tag, vp, number, start, length, reference, windowEnd, state, qc, lane, qcTimer⟩ := e
  subst hstate hlane
  unfold State.applyVerdict
  rw [if_neg (by obtain h | h := h <;> simp [h])]
  dsimp only
  rw [State.mergeSweep_updSweep s
    { tag := tag, vp := vp, number := number, start := start, length := length, reference := reference
      windowEnd := windowEnd, state := .qcWait, qc := some r, lane := some l, qcTimer := qcTimer }
    s.lanes[l] .merged (fun x => { x with qc := some r }) fun _ => rfl]

/-- A verdict of PASS or NOTE stores the record of a sweep that does not wait in a lane (R107). -/
theorem State.applyVerdict_stored (s : State) {e : SweepEntry} {r : QcRecord}
    (h : r.verdict = .pass ∨ r.verdict = .note) (hplace : e.state ≠ .qcWait ∨ e.lane = none) :
    s.applyVerdict e r = (s.updSweep e.tag fun x => { x with qc := some r }, .stored) := by
  unfold State.applyVerdict
  rw [if_neg (by obtain h | h := h <;> simp [h])]
  dsimp only
  split
  · rename_i hstate hlane
    simp [hstate, hlane] at hplace
  · rfl

theorem changes_applyVerdict (e : SweepEntry) (r : QcRecord) (s : State) (he : e ∈ s.sweeps) :
    Changes D s (s.applyVerdict e r).1 := by
  by_cases hbad : r.verdict = .reject ∨ r.verdict = .retry
  · rw [State.applyVerdict_aborted s e hbad]
    exact (Change.aborted s e (.rejected r) (fun _ => he) (by simp)).single
  · have hverdict : r.verdict = .pass ∨ r.verdict = .note := by
      cases h : r.verdict <;> simp [h] at hbad ⊢
    by_cases hplace : e.state ≠ .qcWait ∨ e.lane = none
    · rw [State.applyVerdict_stored s hverdict hplace]
      exact (Change.stored s e r he hplace hverdict).single
    · obtain ⟨hstate, hlane⟩ : e.state = .qcWait ∧ e.lane ≠ none := by simpa [not_or] using hplace
      obtain ⟨l, hlane⟩ := Option.ne_none_iff_exists'.mp hlane
      rw [State.applyVerdict_merged s hverdict hstate hlane]
      exact (Change.merged s { e with qc := some r } e l s.lanes[l] .merged he ⟨rfl, rfl, rfl, rfl, rfl, rfl, rfl⟩ hlane
        (.inr ⟨hstate, hlane, rfl⟩)).single

@[simp] theorem State.postNote_sweeps (s : State) (tag : Nat) (v : Verdict) (f : FailedChecks) :
    (s.postNote tag v f).sweeps = s.sweeps := by
  unfold State.postNote
  split <;> simp

theorem changes_postNote (tag : Nat) (v : Verdict) (f : FailedChecks) (s : State) :
    Changes D s (s.postNote tag v f) := by
  unfold State.postNote
  split
  · exact (change_post s _).single
  · exact Changes.same s

theorem changes_reportTaken (e : SweepEntry) (phase distortion force : Nat) (s : State) (he : e ∈ s.sweeps) :
    Changes D s (reportTaken s e phase distortion force).state := by
  unfold reportTaken
  dsimp only
  have hnote := fun v f => changes_postNote (D := D) e.tag v f s
  have hlisted : ∀ v f, e ∈ (s.postNote e.tag v f).sweeps := fun v f => by simpa using he
  exact Relation.ReflTransGen.trans (hnote _ _) (changes_applyVerdict e _ _ (hlisted _ _))

theorem changes_swqcOwner (p : List Byte) (s : State) : Changes D s (swqcOwner p s).state := by
  unfold swqcOwner
  split
  · exact Changes.same s
  · split
    · rename_i hfound
      split
      · exact Changes.same s
      · exact changes_reportTaken _ _ _ _ s (State.findSweep_eq_some hfound).1
    · split <;> exact Changes.same s

/-! ### Requests on the stack table and the output queue -/

theorem reaches_stkopenOwner (p : List Byte) (s : State) : Reaches D s (stkopenOwner p s).state := by
  unfold stkopenOwner
  split
  · exact Reaches.same s
  · split_ifs with hfull hknown
    · exact Reaches.same s
    · exact Reaches.same s
    · exact (TableChange.opened s p _ (by assumption) (by omega) (by simpa using hknown)).reaches

theorem changes_stkcloseOwner (p : List Byte) (s : State) : Changes D s (stkcloseOwner p s).state := by
  unfold stkcloseOwner
  split_ifs
  · exact Changes.same s
  · split
    · exact Changes.same s
    · split
      · exact (Change.closed s _ _ (by assumption) (by assumption)).single
      · exact Changes.same s

theorem reaches_stkdropOwner (p : List Byte) (s : State) : Reaches D s (stkdropOwner p s).state := by
  unfold stkdropOwner
  split_ifs
  · exact Reaches.same s
  · split
    · exact Reaches.same s
    · exact (TableChange.discarded s _ _ (by assumption)).reaches

theorem stkinfoOwner_state (p : List Byte) (s : State) : (stkinfoOwner p s).state = s := by
  unfold stkinfoOwner
  split_ifs
  · rfl
  · split <;> rfl

theorem changes_releaseBlock (s : State) (r : OutRecord) (rest : List OutRecord) (h : s.oq.records = r :: rest) :
    Changes D s (s.releaseBlock r rest) := by
  unfold State.releaseBlock
  split
  · exact (Change.blocks s _ s.oq.effectiveBlock s.oq.pendingBlock).single
  · exact (Change.released s r rest h).single

theorem changes_oqrelOwner (s : State) : Changes D s (oqrelOwner s).state := by
  unfold oqrelOwner
  split
  · exact Changes.same s
  · rename_i r rest h
    exact (changes_releaseBlock s r rest h).tail (Change.blocks _ _ _ (s.releaseBlock r rest).oq.pendingBlock)

theorem changes_oqsizeOwner (p : List Byte) (s : State) : Changes D s (oqsizeOwner p s).state := by
  unfold oqsizeOwner
  split
  · exact Changes.same s
  · exact (Change.blocks s s.oq.readPosition s.oq.effectiveBlock _).single

/-! ### Requests on the notices -/

theorem changes_ntreadOwner (s : State) : Changes D s (ntreadOwner s).state := by
  unfold ntreadOwner
  split
  · exact Changes.same s
  · rename_i n rest h
    refine (Change.notices s { s.nq with notices := rest, overflow := false } fun hb => ⟨?_, by simp⟩).single
    have hnotices := hb.notices
    rw [h, List.length_cons] at hnotices
    exact Nat.le_of_succ_le hnotices

theorem changes_ntmaskOwner (p : List Byte) (s : State) : Changes D s (ntmaskOwner p s).state := by
  unfold ntmaskOwner
  split
  · exact Changes.same s
  · exact (Change.notices s { s.nq with mask := BitVec.ofNat 7 (field p 0 1) } fun hb =>
      ⟨hb.notices, hb.overflow⟩).single

/-! ### Events of the engines -/

theorem changes_grant (s : State) : Changes D s s.grant := by
  unfold State.grant
  split
  · rename_i e l hready hidle
    obtain ⟨he, hstate⟩ := State.nextReady_eq_some hready
    have hlane := State.idleLane_eq_some hidle
    split
    · rename_i k hk
      have hgrant : ∀ r clips, Change D s ((s.updSweep e.tag fun x => x.grantedTo l).setLane l
          (s.grantedLane e k.settings r clips)) := fun r clips => .granted s e k l r clips he hstate hlane hk
      unfold State.grantTo
      dsimp only
      split
      · exact (hgrant _ _).single
      · split
        · exact (hgrant _ _).single
        · refine (hgrant _ _).single.tail (.aborted _ _ .noPilot (fun _ => ?_) (by simp))
          exact List.mem_map.mpr ⟨e, he, if_pos rfl⟩
    · exact Changes.same s
  · exact Changes.same s

theorem changes_completeJob (s : State) (l : Fin 4) : Changes D s (s.completeJob l) := by
  unfold State.completeJob
  split
  · rename_i hrunning
    split
    · exact Changes.same s
    · rename_i e hfound
      obtain ⟨t, hheld, hfound⟩ := Option.bind_eq_some_iff.mp hfound
      obtain ⟨he, htag⟩ := State.findSweep_eq_some hfound
      rw [← htag] at hheld
      dsimp only
      split
      · rw [State.mergeSweep_setLane s (e.grantedTo l) l _ _ _ rfl]
        exact (Change.merged s (e.grantedTo l) e l { s.lanes[l] with result := s.lanes[l].jobResult } .merged he
          ⟨rfl, rfl, rfl, rfl, rfl, rfl, rfl⟩ rfl (.inl ⟨hrunning, hheld, rfl⟩)).single
      · rename_i hreport
        refine (Change.waits s e l _ he hrunning hheld ?_).single
        simp only [Bool.or_eq_true, not_or, Bool.not_eq_true, Option.isSome_eq_false_iff, Option.isNone_iff_eq_none]
          at hreport
        exact hreport.1
  · exact Changes.same s

theorem changes_expireQcWait (s : State) (e : SweepEntry) (he : e ∈ s.sweeps) (hwaits : e.state = .qcWait) :
    Changes D s (s.expireQcWait e) := by
  have habort : ∀ b, Changes D s (s.abortSweep e (.qcTimeout b)) :=
    fun b => (Change.aborted s e _ (fun _ => he) (by simp)).single
  unfold State.expireQcWait
  split
  · rename_i l _ hlane
    exact (Change.merged s e e l _ .qcMissing he ⟨rfl, rfl, rfl, rfl, rfl, rfl, rfl⟩ hlane
      (.inr ⟨hwaits, hlane, rfl⟩)).single
  · exact Changes.same s
  · exact habort false
  · exact habort true

end

/-! ### Steps -/

/-- What the run of one command can end in: a state reached by changes, the power-on state, or the full reset of a state that
reached it by changes. -/
def Ends (D : Prop) (s t : State) : Prop :=
  Reaches D s t ∨ (∃ u straps, t = State.powerOn u straps) ∨ ∃ u, Changes D s u ∧ t = State.fullReset u

section
variable {D : Prop} {s t : State}

theorem Changes.ends (h : Changes D s t) : Ends D s t := .inl h.reaches

theorem ends_take (r : Request) (owner : State → Reply) (s : State)
    (howner : Reaches D s.dequeue (owner s.dequeue).state) : Ends D s (s.take r owner) :=
  .inl (reaches_take r owner s howner)

theorem ends_of_take (r : Request) (owner : State → Reply) (s : State)
    (howner : Changes D s.dequeue (owner s.dequeue).state) : Ends D s (s.take r owner) :=
  ends_take r owner s howner.reaches

theorem ends_of_take_reading (r : Request) (owner : State → Reply) (s : State)
    (howner : (owner s.dequeue).state = s.dequeue) : Ends D s (s.take r owner) :=
  ends_of_take r owner s (howner.symm ▸ Changes.same _)

theorem ends_rstfull (ak : AddressKind) (payload : List Byte) (s : State) :
    Ends D s (s.take { kind := 28#8, payload := payload, ak := ak } (rstfullOwner ak)) := by
  cases ak with
  | addressed => exact ends_of_take_reading _ _ s rfl
  | broadcast =>
    obtain ⟨-, h⟩ | ⟨-, -, h⟩ | ⟨-, -, h⟩ :=
      State.take_cases { kind := 28#8, payload := payload, ak := .broadcast } (rstfullOwner .broadcast) s
    · rw [h]
      exact (Changes.same s).ends
    · rw [h]
      exact .inl (Reaches.after_command (dequeue_keeps s) (changes_conclude _ (refuse s.dequeue .badLen)).reaches)
    · rw [h]
      exact .inr (.inr ⟨s.dequeue, changes_cmd rfl (dequeue_keeps s), rfl⟩)

theorem ends_answerEnd (s : State) : Ends D s s.answerEnd := by
  unfold State.answerEnd
  split
  · exact (Changes.same s).ends
  · exact .inr (.inr ⟨s, Changes.same s, rfl⟩)
  · exact Changes.ends (changes_cmd (c := { s.cmd with uplink := .quiet }) rfl ⟨id, id⟩)

/-- An event of a port that is not under way changes nothing. -/
theorem ends_portEvent {p : Fin 4} {after : State × Option Nat} {c : Prop} [Decidable c]
    (h : D → (s.sweeps.map (·.tag)).Nodup) (hrun : c → Changes D s after.1 ∧ after.1.sweeps = s.sweeps) :
    Ends D s (if c then s.portEvent p after else s) := by
  split
  · rename_i hc
    exact (changes_portEvent (hrun hc).1 (hrun hc).2 h).ends
  · exact (Changes.same s).ends

theorem ends_exec (i : Instr) (s t : State) (h : D → (s.sweeps.map (·.tag)).Nodup) (hexec : exec i s = .next t) :
    Ends D s t := by
  cases i with
  | chmap ak p => cases hexec; exact ends_of_take _ _ s (changes_chmapOwner p _)
  | chstate ak p => cases hexec; exact ends_of_take _ _ s (changes_chstateOwner p _)
  | probe p => cases hexec; exact ends_of_take_reading _ _ s (probeOwner_state p _)
  | acqset ak p => cases hexec; exact ends_of_take _ _ s (changes_acqsetOwner p _)
  | lnact ak p => cases hexec; exact ends_of_take _ _ s (changes_onPort p _ _ fun q => changes_lnactAt _ q h)
  | lndeact ak p => cases hexec; exact ends_of_take _ _ s (changes_onPort p _ _ fun q => changes_lndeactAt _ q h)
  | lnconf ak p => cases hexec; exact ends_of_take _ _ s (changes_onPort p _ _ fun q => changes_lnconfAt _ q h)
  | lnreset ak p => cases hexec; exact ends_of_take _ _ s (changes_onPort p _ _ fun q => changes_lnresetAt _ q h)
  | lnpolicy ak p => cases hexec; exact ends_of_take _ _ s (changes_onPort p _ _ fun q => changes_lnpolicyAt p _ q)
  | refopen ak p => cases hexec; exact ends_of_take _ _ s (changes_onSlot p _ _ fun q => changes_refopenAt p _ q)
  | refdata ak p => cases hexec; exact ends_of_take _ _ s (changes_onSlot p _ _ fun q => changes_refdataAt p _ q)
  | refclose ak p => cases hexec; exact ends_of_take _ _ s (changes_onSlot p _ _ fun q => changes_refcloseAt _ q)
  | refclear ak p => cases hexec; exact ends_of_take _ _ s (changes_onSlot p _ _ fun q => changes_refclearAt _ q)
  | swann ak p => cases hexec; exact ends_of_take _ _ s (changes_swannOwner p _)
  | swcancel ak p => cases hexec; exact ends_of_take _ _ s (changes_swcancelOwner p _)
  | swlist p => cases hexec; exact ends_of_take_reading _ _ s rfl
  | qcpolicy ak p => cases hexec; exact ends_of_take _ _ s (changes_qcpolicyOwner p _)
  | swqc ak p => cases hexec; exact ends_of_take _ _ s (changes_swqcOwner p _)
  | stkopen ak p => cases hexec; exact ends_take _ _ s (reaches_stkopenOwner p _)
  | stkclose ak p => cases hexec; exact ends_of_take _ _ s (changes_stkcloseOwner p _)
  | stkdrop ak p => cases hexec; exact ends_take _ _ s (reaches_stkdropOwner p _)
  | stkinfo p => cases hexec; exact ends_of_take_reading _ _ s (stkinfoOwner_state p _)
  | oqfetch p => cases hexec; exact ends_of_take_reading _ _ s rfl
  | oqrel p => cases hexec; exact ends_of_take _ _ s (changes_oqrelOwner _)
  | oqsize ak p => cases hexec; exact ends_of_take _ _ s (changes_oqsizeOwner p _)
  | status p => cases hexec; exact ends_of_take_reading _ _ s rfl
  | ident p => cases hexec; exact ends_of_take_reading _ _ s rfl
  | rstfull ak p => cases hexec; exact ends_rstfull ak p s
  | rsteng ak p => cases hexec; exact ends_of_take _ _ s (Change.engineReset _).single
  | ntread p => cases hexec; exact ends_of_take _ _ s (changes_ntreadOwner _)
  | ntmask ak p => cases hexec; exact ends_of_take _ _ s (changes_ntmaskOwner p _)
  | unknownRequest ak k p => cases hexec; exact .inl (reaches_takeUnknown _ s)
  | addressCharacter v =>
    cases hexec
    split
    · exact (Changes.same s).ends
    · exact (changes_marked v s).ends
  | characterError =>
    cases hexec
    split
    · exact (Changes.same s).ends
    · exact (changes_deselect s).ends
  | inconsistentLength lo hi => cases hexec; exact (changes_unmarkedRun _ s).ends
  | requestFrame chars => cases hexec; exact (changes_unmarkedRun _ s).ends
  | answerCompletion => cases hexec; exact ends_answerEnd s
  | powerOnReset straps => cases hexec; exact .inr (.inl ⟨s, straps, rfl⟩)
  | initIntervalEnd =>
    cases hexec
    split
    · exact (changes_cmd rfl ⟨fun _ => Nat.zero_le _, fun _ => rfl⟩).ends
    · exact (Changes.same s).ends
  | lineFrame p bytes =>
    cases hexec
    exact ends_portEvent h fun _ => changes_portFrame p _ s fun f hf => readLineFrame_valid hf
  | frameAbsence p =>
    cases hexec
    exact ends_portEvent h fun hc => changes_slipEvent p none s hc.1 (by simp)
  | wakeTimerExpiry p =>
    cases hexec
    exact ends_portEvent h fun hc => ⟨changes_handleFault p .noWake s hc.1, s.handleFault_sweeps p _⟩
  | slipTimerExpiry p =>
    cases hexec
    exact ends_portEvent h fun hc => ⟨changes_handleFault p .slipTime s hc.1, s.handleFault_sweeps p _⟩
  | retryTimerExpiry p =>
    cases hexec
    refine ends_portEvent h fun _ => ⟨?_, rfl⟩
    exact (change_updPort s p (fun x => x.enterWaking s.interval) (·.congr rfl rfl) (·.enterWaking _)).single
  | drainSilenceTimerExpiry p =>
    cases hexec
    exact ends_portEvent h fun _ => ⟨changes_park s p, by simp [State.park]⟩
  | drainLimitTimerExpiry p =>
    cases hexec
    exact ends_portEvent h fun _ => ⟨changes_park s p, by simp [State.park]⟩
  | grant => cases hexec; exact (changes_grant s).ends
  | laneCompletion l => cases hexec; exact (changes_completeJob s l).ends
  | qcWaitExpiry tag =>
    cases hexec
    split
    · rename_i hfound
      split
      · rename_i hwaits
        exact (changes_expireQcWait s _ (State.findSweep_eq_some hfound).1 hwaits.1).ends
      · exact (Changes.same s).ends
    · exact (Changes.same s).ends
  | finalizeCompletion vp =>
    cases hexec
    split
    · split
      · exact .inl (TableChange.finalized s vp _ (by assumption) (by assumption)).reaches
      · exact (Changes.same s).ends
    · exact (Changes.same s).ends

/-- Everything a step can do: its command is run on the state without it. -/
theorem step_ends (s t : State) (h : D → (s.sweeps.map (·.tag)).Nodup) (hstep : step s = .next t) : Ends D s t := by
  unfold step at hstep
  split at hstep
  · cases hstep
    exact (Changes.same s).ends
  · rename_i c rest _
    have hcommand : ∀ {u}, Reaches D { s with pending := rest } u → Reaches D s u :=
      fun hu => Reaches.after_command (CommandPort.Keeps.refl s.cmd) hu
    obtain hreach | hpower | ⟨u, hrun, hfull⟩ := ends_exec c { s with pending := rest } t h hstep
    · exact .inl (hcommand hreach)
    · exact .inr (.inl hpower)
    · exact .inr (.inr ⟨u, Relation.ReflTransGen.head (.command s s.cmd rest (.refl _)) hrun, hfull⟩)

/-- A law that the power-on state meets and that full resets and changes of every kind keep, every step keeps. -/
theorem step_keeps {L : State → Prop} (hpower : ∀ s straps, L (State.powerOn s straps))
    (hfull : ∀ s, L s → L s.fullReset) (hchange : ∀ s t, Change D s t → L s → L t)
    (htable : ∀ s t, TableChange s t → L s → L t) {s t : State} (h : D → (s.sweeps.map (·.tag)).Nodup)
    (hs : L s) (hstep : step s = .next t) : L t := by
  have hrun : ∀ {u v}, Changes D u v → L u → L v := by
    intro u v huv hu
    induction huv with
    | refl => exact hu
    | tail _ hlast ih => exact hchange _ _ hlast ih
  obtain (hreach | ⟨c, pending, v, hc, hv, hreach⟩) | ⟨u, straps, rfl⟩ | ⟨u, hreach, rfl⟩ := step_ends s t h hstep
  · exact hrun hreach hs
  · exact hrun hreach (htable _ _ hv (hchange _ _ (.command s c pending hc) hs))
  · exact hpower u straps
  · exact hfull u (hrun hreach hs)

end

end Sys2Proof.Machine
end

section
/-! The ring law and the port law are kept by every step (R10, R19, 2.1.1). -/

namespace Sys2Proof.Machine

/-! ### What aborts in a row leave alone -/

/-- What no abort changes, no run of aborts changes. -/
theorem foldl_abort_frame {α : Type} (g : State → α) (hg : ∀ s e w, g (State.abortSweep s e w) = g s) (w : AbortReason)
    (l : List SweepEntry) (s : State) : g (l.foldl (fun s e => s.abortSweep e w) s) = g s := by
  induction l generalizing s with
  | nil => rfl
  | cons e l ih => exact (ih _).trans (hg s e w)

/-- Everything the discarding of a stack can do (R140, R151). -/
theorem State.discardStack_cases (s : State) (k : Stack) :
    ((k.state = .opened ∨ k.state = .closing) ∧
      s.discardStack k = (s.discardSweeps k.settings.vp).dropStack k.settings.vp) ∨
    (k.state = .held ∧ s.oq.heldOrder.head? = some k.settings.vp ∧
      s.discardStack k = ((s.leaveHeld k.settings.vp).dropStack k.settings.vp).serve) ∨
    (k.state = .held ∧ s.oq.heldOrder.head? ≠ some k.settings.vp ∧
      s.discardStack k = (s.leaveHeld k.settings.vp).dropStack k.settings.vp) ∨
    (k.state = .finalizing ∧ s.discardStack k = ((s.unreserve k.settings.vp).dropStack k.settings.vp).serve) := by
  unfold State.discardStack
  cases hstate : k.state with
  | opened => exact .inl ⟨.inl rfl, rfl⟩
  | closing => exact .inl ⟨.inr rfl, rfl⟩
  | held =>
    by_cases hhead : s.oq.heldOrder.head? = some k.settings.vp
    · exact .inr (.inl ⟨rfl, hhead, by simp [hhead]⟩)
    · exact .inr (.inr (.inl ⟨rfl, hhead, by simp [hhead]⟩))
  | finalizing => exact .inr (.inr (.inr ⟨rfl, rfl⟩))

@[simp] theorem State.serve_ports (s : State) : s.serve.ports = s.ports := s.serve_frame.2.2.1
@[simp] theorem State.serve_slots (s : State) : s.serve.slots = s.slots := s.serve_frame.2.2.2.1
@[simp] theorem State.serve_sweeps (s : State) : s.serve.sweeps = s.sweeps := s.serve_frame.2.2.2.2.1
@[simp] theorem State.serve_lanes (s : State) : s.serve.lanes = s.lanes := s.serve_frame.2.2.2.2.2.1
@[simp] theorem State.serve_nq (s : State) : s.serve.nq = s.nq := s.serve_frame.2.2.2.2.2.2.2.1
@[simp] theorem State.serve_cmd (s : State) : s.serve.cmd = s.cmd := s.serve_frame.2.2.2.2.2.2.2.2.1
@[simp] theorem State.serve_records (s : State) : s.serve.oq.records = s.oq.records :=
  s.serve_frame.2.2.2.2.2.2.2.2.2.2.1
@[simp] theorem State.serve_nextNumber (s : State) : s.serve.oq.nextNumber = s.oq.nextNumber :=
  s.serve_frame.2.2.2.2.2.2.2.2.2.2.2.2.1

@[simp] theorem State.discardSweeps_ports (s : State) (vp : Nat) : (s.discardSweeps vp).ports = s.ports :=
  foldl_abort_frame (·.ports) (fun _ _ _ => by simp) _ _ s

@[simp] theorem State.discardSweeps_cmd (s : State) (vp : Nat) : (s.discardSweeps vp).cmd = s.cmd :=
  foldl_abort_frame (·.cmd) (fun _ _ _ => by simp) _ _ s

@[simp] theorem State.discardStack_ports (s : State) (k : Stack) : (s.discardStack k).ports = s.ports := by
  obtain ⟨-, h⟩ | ⟨-, -, h⟩ | ⟨-, -, h⟩ | ⟨-, h⟩ := s.discardStack_cases k <;> simp [h]

@[simp] theorem State.discardStack_cmd (s : State) (k : Stack) : (s.discardStack k).cmd = s.cmd := by
  obtain ⟨-, h⟩ | ⟨-, -, h⟩ | ⟨-, -, h⟩ | ⟨-, h⟩ := s.discardStack_cases k <;> simp [h]

/-- What the parts of a finalize completion leave alone (R155). -/
@[simp] theorem State.finalize_ports (s : State) (k : Stack) : (s.finalize k).ports = s.ports := by
  simp [State.finalize]

@[simp] theorem State.finalize_cmd (s : State) (k : Stack) : (s.finalize k).cmd = s.cmd := by
  simp [State.finalize]

/-! ### Ports -/

section
variable {D : Prop} {s t : State}

/-- What a change makes of the ports. -/
theorem Change.ports (h : Change D s t) : t.ports = s.ports ∨
    ∃ (p : Fin 4) (x : Port), (s.ports[p].RingLaw → x.RingLaw) ∧ (s.ports[p].StateLaw → x.StateLaw) ∧
      t.ports = s.ports.set p x := by
  cases h with
  | port p x hring hstate => exact .inr ⟨p, x, hring, hstate, rfl⟩
  | announced p a k _ _ => left; unfold announce; cases a.reference <;> rfl
  | _ => left; simp [State.engineReset]

theorem TableChange.ports (h : TableChange s t) : t.ports = s.ports := by
  cases h <;> simp

/-- A law of each port by itself that a fresh port meets and a changed one keeps, every step keeps. -/
theorem step_keeps_ports {P : Port → Prop} (hreset : P Port.reset)
    (hport : ∀ x y : Port, (x.RingLaw → y.RingLaw) → (x.StateLaw → y.StateLaw) → P x → P y)
    (hs : ∀ p : Fin 4, P s.ports[p]) (hstep : step s = .next t) : ∀ p : Fin 4, P t.ports[p] := by
  refine step_keeps (D := False) (L := fun s => ∀ p : Fin 4, P s.ports[p]) ?_ ?_ ?_ ?_ (by simp) hs hstep
  · intro s straps p
    simpa [State.powerOn, State.reset] using hreset
  · intro s _ p
    simpa [State.fullReset, State.reset] using hreset
  · intro s t hchange hs p
    obtain hsame | ⟨q, x, hring, hstate, hset⟩ := hchange.ports
    · rw [hsame]
      exact hs p
    · rw [hset, table_set]
      split
      · exact hport _ x hring hstate (hs q)
      · exact hs p
  · intro s t htable hs p
    rw [htable.ports]
    exact hs p

end

theorem Port.reset_ringLaw : Port.reset.RingLaw :=
  ⟨rfl, fun _ h => by simp [Port.reset] at h, fun _ h => by simp [Port.reset] at h⟩

theorem Port.reset_stateLaw : Port.reset.StateLaw := by
  constructor <;> simp [Port.reset, Port.delivering]

/-- Settles O8, port by port: only a frame above the front is written, and what it leaves behind is skipped. -/
theorem everyStepKeepsTheRingLaw : Obligations.EveryStepKeepsTheRingLaw := by
  unfold Obligations.EveryStepKeepsTheRingLaw State.RingsLawful
  intro s t hs hstep
  exact step_keeps_ports Port.reset_ringLaw (fun _ _ hring _ => hring) hs hstep

/-- Settles O9, port by port: each entry to a state stops the timers of the one it leaves. -/
theorem everyStepKeepsThePortLaw : Obligations.EveryStepKeepsThePortLaw := by
  unfold Obligations.EveryStepKeepsThePortLaw State.PortsLawful
  intro s t hs hstep
  exact step_keeps_ports Port.reset_stateLaw (fun _ _ _ hstate => hstate) hs hstep

end Sys2Proof.Machine
end

section
/-! Capacities, tags, record numbers and the rest in the interval are kept by every step (R56, R118, R146, R171, R182, R187). -/

namespace Sys2Proof.Machine

/-! ### The notice list -/

section
variable {s : State}

theorem append_nq (k : RecordKind) (n : Nat) (f : Nat → List Byte) (h : s.nq.Bounded) : (s.append k n f).nq.Bounded := by
  unfold State.append
  dsimp only
  split
  · exact NoticeQueue.Bounded.post _ h
  · exact h

theorem requestSpace_nq (vp n : Nat) (h : s.nq.Bounded) : (s.requestSpace vp n).nq.Bounded := by
  unfold State.requestSpace
  split
  · exact h
  · exact NoticeQueue.Bounded.post _ h

theorem completionTest_nq (vp : Nat) (h : s.nq.Bounded) : (s.completionTest vp).nq.Bounded := by
  unfold State.completionTest
  split
  · exact h
  · split
    · exact requestSpace_nq _ _ h
    · exact h

theorem offerSweep_nq (e : SweepEntry) (l : Lane) (d : Disposition) (q : Option QcRecord) (h : s.nq.Bounded) :
    (s.offerSweep e l d q).nq.Bounded := by
  unfold State.offerSweep
  split
  · dsimp only
    split_ifs
    · exact append_nq _ _ _ h
    · exact NoticeQueue.Bounded.post _ h
    · exact NoticeQueue.Bounded.post _ h
    · exact h
  · exact h

theorem resweep_nq (e : SweepEntry) (c : AbortCause) (h : s.nq.Bounded) : (s.resweep e c).nq.Bounded := by
  unfold State.resweep
  split
  · exact h
  · split_ifs
    · exact NoticeQueue.Bounded.post _ h
    · exact h
    · exact h

theorem route_nq (e : SweepEntry) (w : AbortReason) (h : s.nq.Bounded) : (s.route e w).nq.Bounded := by
  unfold State.route
  split
  case h_4 =>
    split
    · exact resweep_nq e _ h
    · exact h
  case h_5 => exact resweep_nq e _ h
  all_goals exact h

theorem offerAborted_nq (e : SweepEntry) (w : AbortReason) (h : s.nq.Bounded) : (s.offerAborted e w).nq.Bounded := by
  unfold State.offerAborted
  split
  · split
    · exact offerSweep_nq _ _ _ _ h
    · exact h
  · exact h

theorem abortSweep_nq (e : SweepEntry) (w : AbortReason) (h : s.nq.Bounded) : (s.abortSweep e w).nq.Bounded := by
  have hgone : (((s.offerAborted e w).withoutSweep e).post (.swAbort e.tag e.vp e.number w.cause)).nq.Bounded :=
    NoticeQueue.Bounded.post _ (offerAborted_nq e w h)
  unfold State.abortSweep
  rw [State.leave_abort]
  dsimp only
  split
  · exact hgone
  · exact completionTest_nq _ (route_nq e w hgone)

theorem mergeSweep_nq (e : SweepEntry) (l : Lane) (d : Disposition) (h : s.nq.Bounded) :
    (s.mergeSweep e l d).nq.Bounded := by
  have hoffer := offerSweep_nq (s := s.updStack e.vp fun k => k.mergeSweep e l.result) e l d e.qc h
  rw [State.mergeSweep_eq]
  exact completionTest_nq _ (NoticeQueue.Bounded.post _ hoffer)

theorem foldl_abort_nq (w : AbortReason) (l : List SweepEntry) (s : State) (h : s.nq.Bounded) :
    (l.foldl (fun s e => s.abortSweep e w) s).nq.Bounded := by
  induction l generalizing s with
  | nil => exact h
  | cons e l ih => exact ih _ (abortSweep_nq e w h)

theorem discardStack_nq (k : Stack) (h : s.nq.Bounded) : (s.discardStack k).nq.Bounded := by
  obtain ⟨-, hcase⟩ | ⟨-, -, hcase⟩ | ⟨-, -, hcase⟩ | ⟨-, hcase⟩ := s.discardStack_cases k
  · rw [hcase]
    exact foldl_abort_nq _ _ s h
  · rw [hcase, State.serve_nq]
    exact h
  · rw [hcase]
    exact h
  · rw [hcase, State.serve_nq]
    exact h

theorem finalize_nq (k : Stack) (h : s.nq.Bounded) : (s.finalize k).nq.Bounded :=
  NoticeQueue.Bounded.post _ (append_nq (s := s.unreserve k.settings.vp) _ _ _ h)

end

section
variable {D : Prop} {s t : State}

theorem Change.nq (h : Change D s t) (hs : s.nq.Bounded) : t.nq.Bounded := by
  cases h with
  | notices q hq => exact hq hs
  | announced p a k _ _ => unfold announce; cases a.reference <;> exact hs
  | aborted e w _ _ => exact abortSweep_nq e w hs
  | merged e x l y d _ _ _ _ => exact mergeSweep_nq e y d hs
  | released r rest _ => rw [State.serve_nq]; exact hs
  | closed vp k _ _ => exact completionTest_nq vp hs
  | engineReset => exact ⟨Nat.zero_le _, by simp [State.engineReset]⟩
  | _ => exact hs

theorem TableChange.nq (h : TableChange s t) (hs : s.nq.Bounded) : t.nq.Bounded := by
  cases h with
  | opened p k _ _ _ => exact hs
  | discarded vp k _ => exact discardStack_nq k hs
  | finalized vp k _ _ => exact finalize_nq k hs

/-! ### The command port -/

theorem Change.cmd (h : Change D s t) : s.cmd.Keeps t.cmd := by
  cases h with
  | command c pending hc => exact hc
  | engineReset => exact ⟨fun _ => Nat.zero_le _, id⟩
  | announced p a k _ _ => unfold announce; cases a.reference <;> exact .refl _
  | aborted e w _ _ => rw [State.abortSweep_cmd]; exact .refl _
  | merged e x l y d _ _ _ _ => rw [State.mergeSweep_cmd]; exact .refl _
  | released r rest _ => rw [State.serve_cmd]; exact .refl _
  | closed vp k _ _ => rw [State.completionTest_cmd]; exact .refl _
  | _ => exact .refl _

theorem TableChange.cmd (h : TableChange s t) : t.cmd = s.cmd := by
  cases h <;> simp

end

/-! ### The sweep list -/

section
variable {D : Prop} {s t : State}

theorem announceCheck_eq_ok {a : Announcement} {k : Stack} (h : announceCheck s a = .ok k) :
    s.sweeps.length < Config.sweepLimit ∧ (∀ e ∈ s.sweeps, e.tag ≠ a.tag) ∧ s.findStack a.vp = some k ∧
      stackRefusal s a k = none := by
  unfold announceCheck at h
  split_ifs at h with hfull hknown
  split at h
  · cases h
  · rename_i hfound
    split at h
    · cases h
    · cases h
      refine ⟨by omega, fun e he htag => hknown ?_, hfound, by assumption⟩
      exact List.find?_isSome.mpr ⟨e, he, by simpa using htag⟩

/-- The slots once a sweep of a reference is listed: a named slot counts one use more (R44). -/
def namedSlots (slots : Vector RefSlot 8) : Reference → Vector RefSlot 8
  | .slot i => slots.set i { slots[i] with useCount := slots[i].useCount + 1 }
  | .pilot _ _ => slots

/-- The parts of an announcement as one update (R61). -/
theorem announce_eq (s : State) (a : Announcement) (k : Stack) :
    announce s a k = { s with
      sweeps := s.sweeps ++ [{ newEntry a k with state := newState s (newEntry a k) }]
      slots := namedSlots s.slots a.reference
      stackTable := s.stackTable.map fun y =>
        if y.settings.vp = a.vp then y.setMap a.number (.announced a.tag) else y } := by
  unfold announce
  cases a.reference <;> rfl

/-- What the discarding of sweeps leaves of the list (R79). -/
theorem foldl_abort_sweeps (w : AbortReason) (l : List SweepEntry) (s : State) :
    (l.foldl (fun s e => s.abortSweep e w) s).sweeps = s.sweeps.filter fun x => l.all fun e => x.tag != e.tag := by
  induction l generalizing s with
  | nil => simp
  | cons e l ih =>
    rw [List.foldl_cons, ih, State.abortSweep_sweeps, List.filter_filter]
    exact List.filter_congr fun x _ => by simp [Bool.and_comm]

theorem discardSweeps_sublist (s : State) (vp : Nat) : (s.discardSweeps vp).sweeps.Sublist s.sweeps := by
  unfold State.discardSweeps
  rw [foldl_abort_sweeps]
  exact List.filter_sublist

theorem discardStack_sublist (s : State) (k : Stack) : (s.discardStack k).sweeps.Sublist s.sweeps := by
  obtain ⟨-, h⟩ | ⟨-, -, h⟩ | ⟨-, -, h⟩ | ⟨-, h⟩ := s.discardStack_cases k
  · rw [h]
    exact discardSweeps_sublist s _
  · simp [h]
  · simp [h]
  · simp [h]

theorem SweepEntry.Same.refl (e : SweepEntry) : e.Same e := ⟨rfl, rfl, rfl, rfl, rfl, rfl, rfl⟩

/-- What a change makes of the sweep list: the same sweeps in the same order, fewer of them, or one more with a fresh tag. -/
theorem Change.sweeps (h : Change D s t) :
    (∃ f : SweepEntry → SweepEntry, (∀ e, (f e).Same e) ∧ t.sweeps = s.sweeps.map f) ∨ t.sweeps.Sublist s.sweeps ∨
      ∃ e, t.sweeps = s.sweeps ++ [e] ∧ s.sweeps.length < Config.sweepLimit ∧ ∀ x ∈ s.sweeps, x.tag ≠ e.tag := by
  have hupd : ∀ (tag : Nat) (f : SweepEntry → SweepEntry), (∀ e, (f e).Same e) →
      ∀ e, (if e.tag = tag then f e else e).Same e := by
    intro tag f hf e
    split
    · exact hf e
    · exact .refl e
  cases h with
  | readied => exact .inl ⟨fun e => { e with state := readiness s.ports e }, fun e => ⟨rfl, rfl, rfl, rfl, rfl, rfl, rfl⟩, rfl⟩
  | announced p a k _ hcheck =>
    obtain ⟨hroom, hfresh, -, -⟩ := announceCheck_eq_ok hcheck
    exact .inr (.inr ⟨_, congrArg State.sweeps (announce_eq s a k), hroom, hfresh⟩)
  | aborted e w _ _ => exact .inr (.inl (by rw [State.abortSweep_sweeps]; exact List.filter_sublist))
  | granted e k l r clips _ _ _ _ =>
    exact .inl ⟨_, hupd e.tag (·.grantedTo l) fun x => ⟨rfl, rfl, rfl, rfl, rfl, rfl, rfl⟩, rfl⟩
  | waits e l limit _ _ _ _ =>
    exact .inl ⟨_, hupd e.tag (fun x => { x with state := .qcWait, qcTimer := some limit })
      fun x => ⟨rfl, rfl, rfl, rfl, rfl, rfl, rfl⟩, rfl⟩
  | merged e x l y d _ _ _ _ => exact .inr (.inl (by rw [State.mergeSweep_sweeps]; exact List.filter_sublist))
  | stored e r _ _ _ =>
    exact .inl ⟨_, hupd e.tag (fun x => { x with qc := some r }) fun x => ⟨rfl, rfl, rfl, rfl, rfl, rfl, rfl⟩, rfl⟩
  | released r rest _ => exact .inr (.inl (by simp))
  | closed vp k _ _ => exact .inr (.inl (by simp))
  | engineReset => exact .inr (.inl (List.nil_sublist _))
  | _ => exact .inr (.inl (List.Sublist.refl _))

theorem State.finalize_sweeps (s : State) (k : Stack) : (s.finalize k).sweeps = s.sweeps := by
  simp [State.finalize]

theorem TableChange.sweeps (h : TableChange s t) : t.sweeps.Sublist s.sweeps := by
  cases h with
  | opened p k _ _ _ => exact List.Sublist.refl _
  | discarded vp k _ => exact discardStack_sublist s k
  | finalized vp k _ _ => rw [State.finalize_sweeps]

end

/-! ### The settings in the stack table -/

section
variable {D : Prop} {s t : State}

/-- The settings of the stacks, in table order. -/
def State.tableSettings (s : State) : List StackSettings := s.stackTable.map (·.settings)

theorem tableSettings_congr (h : t.stackTable = s.stackTable) : t.tableSettings = s.tableSettings := by
  rw [State.tableSettings, h, State.tableSettings]

theorem updStack_tableSettings (s : State) (vp : Nat) (f : Stack → Stack) (hf : ∀ k, (f k).settings = k.settings) :
    (s.updStack vp f).tableSettings = s.tableSettings := by
  simp only [State.tableSettings, State.updStack, List.map_map]
  refine List.map_congr_left fun k _ => ?_
  simp only [Function.comp]
  split
  · exact hf k
  · rfl

theorem requestSpace_tableSettings (s : State) (vp n : Nat) : (s.requestSpace vp n).tableSettings = s.tableSettings := by
  unfold State.requestSpace
  split
  · exact updStack_tableSettings _ vp _ fun _ => rfl
  · exact (tableSettings_congr (State.post_stackTable _ _)).trans (updStack_tableSettings _ vp _ fun _ => rfl)

theorem completionTest_tableSettings (s : State) (vp : Nat) : (s.completionTest vp).tableSettings = s.tableSettings := by
  unfold State.completionTest
  split
  · rfl
  · split
    · rw [requestSpace_tableSettings]
      exact updStack_tableSettings s vp _ fun _ => rfl
    · rfl

theorem resweep_tableSettings (s : State) (e : SweepEntry) (c : AbortCause) :
    (s.resweep e c).tableSettings = s.tableSettings := by
  unfold State.resweep
  split
  · rfl
  · split_ifs
    · exact (tableSettings_congr (State.post_stackTable _ _)).trans (updStack_tableSettings _ _ _ fun _ => rfl)
    · exact updStack_tableSettings _ _ _ fun _ => rfl
    · exact updStack_tableSettings _ _ _ fun _ => rfl

theorem route_tableSettings (s : State) (e : SweepEntry) (w : AbortReason) :
    (s.route e w).tableSettings = s.tableSettings := by
  unfold State.route
  split
  case h_4 =>
    split
    · exact resweep_tableSettings s e _
    · exact updStack_tableSettings _ _ _ fun _ => rfl
  case h_5 => exact resweep_tableSettings s e _
  case h_7 => rfl
  all_goals exact updStack_tableSettings _ _ _ fun _ => rfl

theorem abortSweep_tableSettings (s : State) (e : SweepEntry) (w : AbortReason) :
    (s.abortSweep e w).tableSettings = s.tableSettings := by
  have hgone : (((s.offerAborted e w).withoutSweep e).post (.swAbort e.tag e.vp e.number w.cause)).tableSettings =
      s.tableSettings := tableSettings_congr (by simp [State.withoutSweep])
  unfold State.abortSweep
  rw [State.leave_abort]
  dsimp only
  split
  · exact hgone
  · rw [completionTest_tableSettings, route_tableSettings, hgone]

theorem mergeSweep_tableSettings (s : State) (e : SweepEntry) (l : Lane) (d : Disposition) :
    (s.mergeSweep e l d).tableSettings = s.tableSettings := by
  rw [State.mergeSweep_eq, completionTest_tableSettings]
  refine (tableSettings_congr ?_).trans (updStack_tableSettings s e.vp (fun k => k.mergeSweep e l.result) fun _ => rfl)
  simp [State.withoutSweep]

theorem serve_tableSettings (s : State) : s.serve.tableSettings = s.tableSettings := by
  unfold State.serve
  generalize s.oq.heldOrder = held
  induction held generalizing s with
  | nil => rfl
  | cons vp rest ih =>
    unfold State.serveHeld
    split
    · split
      · rw [ih]
        exact updStack_tableSettings _ vp _ fun _ => rfl
      · rfl
    · rfl

theorem foldl_abort_tableSettings (w : AbortReason) (l : List SweepEntry) (s : State) :
    (l.foldl (fun s e => s.abortSweep e w) s).tableSettings = s.tableSettings :=
  foldl_abort_frame State.tableSettings (fun s e w => abortSweep_tableSettings s e w) w l s

/-- No change adds a stack or changes a stack's settings. -/
theorem Change.tableSettings (h : Change D s t) : t.tableSettings.Sublist s.tableSettings := by
  have heq : t.tableSettings = s.tableSettings → t.tableSettings.Sublist s.tableSettings := fun h => h ▸ List.Sublist.refl _
  cases h with
  | announced p a k _ _ =>
    refine heq ?_
    rw [announce_eq]
    exact updStack_tableSettings s a.vp (fun y => y.setMap a.number (.announced a.tag)) fun _ => rfl
  | aborted e w _ _ => exact heq (abortSweep_tableSettings s e w)
  | merged e x l y d _ _ _ _ => exact heq (mergeSweep_tableSettings s e y d)
  | released r rest _ => exact heq (serve_tableSettings _)
  | closed vp k _ _ =>
    exact heq ((completionTest_tableSettings _ vp).trans (updStack_tableSettings s vp _ fun _ => rfl))
  | engineReset => exact List.nil_sublist _
  | _ => exact List.Sublist.refl _

theorem dropStack_tableSettings (s : State) (vp : Nat) : (s.dropStack vp).tableSettings.Sublist s.tableSettings :=
  List.filter_sublist.map _

theorem discardStack_tableSettings (s : State) (k : Stack) : (s.discardStack k).tableSettings.Sublist s.tableSettings := by
  obtain ⟨-, h⟩ | ⟨-, -, h⟩ | ⟨-, -, h⟩ | ⟨-, h⟩ := s.discardStack_cases k
  · rw [h, ← foldl_abort_tableSettings .discarded (s.sweeps.filter fun e => e.vp == k.settings.vp) s]
    exact dropStack_tableSettings _ _
  · rw [h, serve_tableSettings]
    exact dropStack_tableSettings _ _
  · rw [h]
    exact dropStack_tableSettings _ _
  · rw [h, serve_tableSettings]
    exact dropStack_tableSettings _ _

theorem finalize_stackTable (s : State) (k : Stack) :
    (s.finalize k).stackTable = s.stackTable.filter fun y => y.settings.vp != k.settings.vp := by
  simp [State.finalize]

theorem TableChange.tableSettings (h : TableChange s t) : t.tableSettings.Sublist s.tableSettings ∨
    ∃ k, t.tableSettings = s.tableSettings ++ [k] ∧ s.stackTable.length < Config.stackLimit ∧
      ∀ x ∈ s.stackTable, x.settings.vp ≠ k.vp := by
  cases h with
  | opened p k _ hroom hnew =>
    refine .inr ⟨k, by simp [State.tableSettings, Stack.new], hroom, fun x hx heq => ?_⟩
    simpa [heq] using List.find?_eq_none.mp hnew x hx
  | discarded vp k _ => exact .inl (discardStack_tableSettings s k)
  | finalized vp k _ _ =>
    left
    rw [State.tableSettings, finalize_stackTable]
    exact List.filter_sublist.map _

end

/-! ### The laws -/

theorem State.tableSettings_length (s : State) : s.tableSettings.length = s.stackTable.length := by
  simp [State.tableSettings]

theorem tableSettings_vps (s : State) : s.tableSettings.map (·.vp) = s.stackTable.map (·.settings.vp) := by
  simp [State.tableSettings]

theorem State.Bounded.nq {s : State} (h : s.Bounded) : s.nq.Bounded := ⟨h.notices, h.overflow⟩

theorem Change.bounded {D : Prop} {s t : State} (h : Change D s t) (hs : s.Bounded) : t.Bounded := by
  have hnq := h.nq hs.nq
  have hsettings := h.tableSettings.length_le
  rw [State.tableSettings_length, State.tableSettings_length] at hsettings
  refine ⟨hnq.notices, hnq.overflow, h.cmd.requests hs.requests, ?_, hsettings.trans hs.table⟩
  obtain ⟨f, -, hmap⟩ | hsub | ⟨e, happend, hroom, -⟩ := h.sweeps
  · rw [hmap, List.length_map]
    exact hs.entries
  · exact hsub.length_le.trans hs.entries
  · rw [happend, List.length_append]
    exact hroom

theorem TableChange.bounded {s t : State} (h : TableChange s t) (hs : s.Bounded) : t.Bounded := by
  have hnq := h.nq hs.nq
  refine ⟨hnq.notices, hnq.overflow, by rw [h.cmd]; exact hs.requests, h.sweeps.length_le.trans hs.entries, ?_⟩
  rw [← State.tableSettings_length]
  obtain hsub | ⟨k, happend, hroom, -⟩ := h.tableSettings
  · exact hsub.length_le.trans (s.tableSettings_length.trans_le hs.table)
  · rw [happend, List.length_append, State.tableSettings_length]
    exact hroom

/-- Settles O7: only an announcement, an STKOPEN, a posting and a joining request lengthen a list, each at a list with room. -/
theorem everyStepKeepsTheCapacities : Obligations.EveryStepKeepsTheCapacities := by
  unfold Obligations.EveryStepKeepsTheCapacities
  intro s t hs hstep
  refine step_keeps (D := False) ?_ ?_ (fun _ _ h => h.bounded) (fun _ _ h => h.bounded) (by simp) hs hstep
  · intro s straps
    exact ⟨Nat.zero_le _, by simp [State.powerOn, State.reset, NoticeQueue.reset], Nat.zero_le _, Nat.zero_le _,
      Nat.zero_le _⟩
  · intro s _
    exact ⟨Nat.zero_le _, by simp [State.fullReset, State.reset, NoticeQueue.reset], Nat.zero_le _, Nat.zero_le _,
      Nat.zero_le _⟩

theorem Change.tagsDistinct {D : Prop} {s t : State} (h : Change D s t) (hs : s.TagsDistinct) : t.TagsDistinct := by
  refine ⟨?_, ?_⟩
  · obtain ⟨f, hf, hmap⟩ | hsub | ⟨e, happend, -, hfresh⟩ := h.sweeps
    · have htags : t.sweeps.map (·.tag) = s.sweeps.map (·.tag) := by
        rw [hmap, List.map_map]
        exact List.map_congr_left fun e _ => (hf e).tag
      rw [htags]
      exact hs.tags
    · exact hs.tags.sublist (hsub.map _)
    · rw [happend, List.map_append, List.map_singleton]
      refine List.Nodup.append hs.tags (List.nodup_singleton _) ?_
      simpa using hfresh
  · rw [← tableSettings_vps]
    exact (tableSettings_vps s ▸ hs.vps).sublist (h.tableSettings.map _)

theorem TableChange.tagsDistinct {s t : State} (h : TableChange s t) (hs : s.TagsDistinct) : t.TagsDistinct := by
  refine ⟨hs.tags.sublist (h.sweeps.map _), ?_⟩
  rw [← tableSettings_vps]
  have hvps := tableSettings_vps s ▸ hs.vps
  obtain hsub | ⟨k, happend, -, hfresh⟩ := h.tableSettings
  · exact hvps.sublist (hsub.map _)
  · rw [happend, List.map_append, List.map_singleton]
    refine List.Nodup.append hvps (List.nodup_singleton _) ?_
    simpa [tableSettings_vps] using hfresh

/-- The power-on state meets every law of tags. -/
theorem powerOn_tagsDistinct (s : State) (straps : BitVec 6) : (s.powerOn straps).TagsDistinct :=
  ⟨List.nodup_nil, List.nodup_nil⟩

theorem fullReset_tagsDistinct (s : State) : s.fullReset.TagsDistinct := ⟨List.nodup_nil, List.nodup_nil⟩

/-- Settles O11: an announcement and an STKOPEN alone add a tag, and each is refused a tag that is listed. -/
theorem everyStepKeepsTagsDistinct : Obligations.EveryStepKeepsTagsDistinct := by
  unfold Obligations.EveryStepKeepsTagsDistinct
  intro s t hs hstep
  exact step_keeps (D := False) powerOn_tagsDistinct (fun s _ => fullReset_tagsDistinct s) (fun _ _ h => h.tagsDistinct)
    (fun _ _ h => h.tagsDistinct) (by simp) hs hstep

/-! ### The initialization interval -/

/-- A part at rest has no request to take. -/
theorem State.AtRest.not_taking {s : State} (h : s.AtRest) (r : Request) : ¬ s.Taking r := by
  intro htaking
  simpa [h.requests] using htaking.oldest

/-- No unmarked character is heard in the interval (R182). -/
theorem unmarkedRun_interval (bs : List Byte) {s : State} (h : s.cmd.initInterval = true) : s.unmarkedRun bs = s := by
  induction bs with
  | nil => rfl
  | cons b bs ih =>
    have hb : s.unmarked b = s := by simp [State.unmarked, h]
    show State.unmarkedRun (s.unmarked b) bs = s
    rw [hb, ih]

theorem State.AtRest.findSweep {s : State} (h : s.AtRest) (tag : Nat) : s.findSweep tag = none := by
  simp [State.findSweep, h.entries]

theorem State.AtRest.findStack {s : State} (h : s.AtRest) (vp : Nat) : s.findStack vp = none := by
  simp [State.findStack, h.table]

theorem State.AtRest.portEvent {s : State} (h : s.AtRest) (p : Fin 4) (frame : Option LineFrame) :
    s.portEvent p (s.portFrame p frame) = s := by
  rw [s.portFrame_discarded p frame (by rw [h.ports p]; simp), s.portEvent_same p rfl]

theorem State.AtRest.grant {s : State} (h : s.AtRest) : s.grant = s := by
  simp [State.grant, State.nextReady, h.entries, earliestStart]

theorem State.AtRest.completeJob {s : State} (h : s.AtRest) (l : Fin 4) : s.completeJob l = s := by
  unfold State.completeJob
  rw [if_neg (by rw [h.lanes l]; simp)]

/-- A timer of a state the port is not in does not expire. -/
theorem State.AtRest.no_expiry {s u : State} (h : s.AtRest) {p : Fin 4} {st : PortState} {b : Prop}
    [Decidable (s.ports[p].state = st ∧ b)] (hst : st ≠ .off) :
    (if s.ports[p].state = st ∧ b then u else s) = s :=
  if_neg fun hc => hst (hc.1.symm.trans (h.ports p))

/-- Settles O4, command by command: there is no request to take, no character is heard, and no timer or job runs. -/
theorem nothingChangesInTheInterval : Obligations.NothingChangesInTheInterval := by
  unfold Obligations.NothingChangesInTheInterval
  intro c s hinterval hrest hpower hend
  have htake : ∀ r owner, s.take r owner = s := fun r owner => State.take_not (hrest.not_taking r)
  cases c with
  | powerOnReset straps => exact absurd rfl (hpower straps)
  | initIntervalEnd => exact absurd rfl hend
  | unknownRequest ak k p =>
    have hnot : s.canTake { kind := k, payload := p, ak := ak } = false := by
      exact Bool.eq_false_iff.mpr fun h => hrest.not_taking _ (State.canTake_iff.mp h)
    show execUnknownRequest ak k p s = _
    simp [execUnknownRequest, State.takeUnknown, hnot]
  | addressCharacter v => exact congrArg _ (if_pos hinterval)
  | characterError => exact congrArg _ (if_pos hinterval)
  | inconsistentLength lo hi => exact congrArg _ (unmarkedRun_interval _ hinterval)
  | requestFrame chars => exact congrArg _ (unmarkedRun_interval _ hinterval)
  | answerCompletion =>
    show execAnswerCompletion s = _
    simp [execAnswerCompletion, State.answerEnd, hrest.uplink]
  | lineFrame p bytes =>
    show execLineFrame p bytes s = _
    rw [execLineFrame, hrest.portEvent, ite_self]
  | frameAbsence p => exact congrArg _ (hrest.no_expiry (by simp))
  | wakeTimerExpiry p => exact congrArg _ (hrest.no_expiry (by simp))
  | slipTimerExpiry p => exact congrArg _ (hrest.no_expiry (by simp))
  | retryTimerExpiry p => exact congrArg _ (hrest.no_expiry (by simp))
  | drainSilenceTimerExpiry p => exact congrArg _ (hrest.no_expiry (by simp))
  | drainLimitTimerExpiry p => exact congrArg _ (hrest.no_expiry (by simp))
  | grant => exact congrArg _ hrest.grant
  | laneCompletion l => exact congrArg _ (hrest.completeJob l)
  | qcWaitExpiry tag =>
    show execQcWaitExpiry tag s = _
    simp only [execQcWaitExpiry, hrest.findSweep]
  | finalizeCompletion vp =>
    show execFinalizeCompletion vp s = _
    simp only [execFinalizeCompletion, hrest.findStack]
  | _ => exact congrArg _ (htake _ _)

theorem AtRest_of_reset {s : State} (hports : s.ports = State.reset.ports) (hlanes : s.lanes = State.reset.lanes)
    (hsweeps : s.sweeps = []) (htable : s.stackTable = []) (hnotices : s.nq.notices = []) (a : Option Nat)
    (hcmd : s.cmd = CommandPort.reset a) : s.AtRest := by
  refine ⟨?_, ?_, hsweeps, htable, hnotices, ?_, ?_, ?_, ?_⟩
  · rw [hports]
    intro p
    simp [State.reset, Port.reset]
  · rw [hlanes]
    intro l
    simp [State.reset, Lane.reset]
  all_goals rw [hcmd]; rfl

theorem Change.outside {D : Prop} {s t : State} (h : Changes D s t) (hs : s.cmd.initInterval = false) :
    t.cmd.initInterval = false := by
  induction h with
  | refl => exact hs
  | tail _ hlast ih => exact hlast.cmd.outside ih

/-- Outside the interval only a full or power-on reset begins it, and each leaves the part at rest. -/
theorem step_outside {s t : State} (hs : s.cmd.initInterval = false) (hstep : step s = .next t) :
    t.cmd.initInterval = false ∨ t.AtRest := by
  obtain (hrun | ⟨c, pending, v, hc, hv, hrun⟩) | ⟨u, straps, rfl⟩ | ⟨u, -, rfl⟩ :=
    step_ends (D := False) s t (by simp) hstep
  · exact .inl (Change.outside hrun hs)
  · exact .inl (Change.outside hrun (hv.cmd ▸ hc.outside hs))
  · exact .inr (AtRest_of_reset rfl rfl rfl rfl rfl _ rfl)
  · exact .inr (AtRest_of_reset rfl rfl rfl rfl rfl _ rfl)

/-- Settles O10: in the interval nothing moves but by a power-on reset or its end, and only a reset begins it. -/
theorem everyStepKeepsTheIntervalAtRest : Obligations.EveryStepKeepsTheIntervalAtRest := by
  unfold Obligations.EveryStepKeepsTheIntervalAtRest State.RestsInInterval
  intro s t hs hstep hinterval
  cases hs' : s.cmd.initInterval with
  | false =>
    obtain hout | hrest := step_outside hs' hstep
    · simp [hinterval] at hout
    · exact hrest
  | true =>
    have hrest := hs hs'
    unfold step at hstep
    split at hstep
    · cases hstep
      exact hrest
    · rename_i c rest _
      have hrest' : State.AtRest { s with pending := rest } := { hrest with }
      by_cases hpower : ∃ straps, c = .powerOnReset straps
      · obtain ⟨straps, rfl⟩ := hpower
        cases hstep
        exact AtRest_of_reset rfl rfl rfl rfl rfl _ rfl
      · by_cases hend : c = .initIntervalEnd
        · subst hend
          cases hstep
          simp [hs', State.initEnd] at hinterval
        · rw [nothingChangesInTheInterval c { s with pending := rest } hs' hrest' (fun straps h => hpower ⟨straps, h⟩) hend]
            at hstep
          cases hstep
          exact hrest'

end Sys2Proof.Machine
end

section
/-! Record numbers, the slot law and the lane law are kept by every step (R44, R67, R83, R146). -/

namespace Sys2Proof.Machine

/-! ### Appends -/

/-- The output queue after an append (R146, R147). -/
def OutputQueue.appended (q : OutputQueue) (kind : RecordKind) (size : Nat) (content : Nat → List Byte) : OutputQueue :=
  { q with
    records := q.records ++ [{ kind := kind, number := q.nextNumber, size := size, content := content q.nextNumber }]
    nextNumber := nextRecordNumber q.nextNumber, readPosition := if q.records = [] then 0 else q.readPosition }

theorem append_oq (s : State) (kind : RecordKind) (size : Nat) (content : Nat → List Byte) :
    (s.append kind size content).oq = s.oq.appended kind size content := by
  unfold State.append OutputQueue.appended
  dsimp only
  split
  · rename_i h
    have hnil : s.oq.records = [] := by simpa using h
    rw [State.post_oq]
    simp [hnil]
  · rename_i h
    have hcons : s.oq.records ≠ [] := by simpa using h
    simp [hcons]

theorem nextRecordNumber_range {n : Nat} (h : 1 ≤ n ∧ n ≤ Config.recordLimit) :
    1 ≤ nextRecordNumber n ∧ nextRecordNumber n ≤ Config.recordLimit := by
  unfold nextRecordNumber
  split <;> simp only [Config.recordLimit] at * <;> omega

theorem OutputQueue.Numbered.appended {q : OutputQueue} (h : q.Numbered) (kind : RecordKind) (size : Nat)
    (content : Nat → List Byte) : (q.appended kind size content).Numbered := by
  refine ⟨nextRecordNumber_range h.counter, ?_, ?_⟩
  · intro i r r' hr hr'
    simp only [OutputQueue.appended] at hr hr'
    obtain hlt | hge := Nat.lt_or_ge (i + 1) q.records.length
    · rw [List.getElem?_append_left (by omega)] at hr
      rw [List.getElem?_append_left hlt] at hr'
      exact h.rising i r r' hr hr'
    · have hi : i + 1 = q.records.length := by
        have := (List.getElem?_eq_some_iff.mp hr').1
        rw [List.length_append, List.length_singleton] at this
        omega
      rw [List.getElem?_append_left (by omega)] at hr
      have hlast : q.records.getLast? = some r := by
        rw [List.getLast?_eq_getElem?, ← hi]
        exact hr
      rw [hi, List.getElem?_concat_length] at hr'
      cases hr'
      exact h.last r hlast
  · intro r hr
    simp only [OutputQueue.appended, List.getLast?_append_of_ne_nil _ (List.cons_ne_nil _ _), List.getLast?_singleton,
      Option.some.injEq] at hr
    subst hr
    rfl

/-- The numbering reads the records and the counter alone. -/
theorem OutputQueue.Numbered.congr {q q' : OutputQueue} (h : q.Numbered) (hrecords : q'.records = q.records)
    (hnext : q'.nextNumber = q.nextNumber) : q'.Numbered := by
  obtain ⟨counter, rising, last⟩ := h
  exact ⟨hnext ▸ counter, by rw [hrecords]; exact rising, by rw [hrecords, hnext]; exact last⟩

section
variable (s : State)

/-- Everything the offer of a sweep record does to the output queue (R157): nothing, or an append of a record that fits while
no stack is held. -/
theorem offerSweep_oq (e : SweepEntry) (l : Lane) (d : Disposition) (q : Option QcRecord) :
    (s.offerSweep e l d q).oq = s.oq ∨
      ∃ k, s.findStack e.vp = some k ∧ s.oq.heldOrder = [] ∧
        sweepRecordSize l.result.length k.settings.listen ≤ s.oq.free ∧
        (s.offerSweep e l d q).oq = s.oq.appended .sweep (sweepRecordSize l.result.length k.settings.listen)
          (fun n => sweepContent e k.settings l n d q s.interval s.channels) := by
  unfold State.offerSweep
  split
  · rename_i k hk
    dsimp only
    split_ifs with _ hheld hfits
    · refine .inr ⟨k, hk, by simpa using hheld, hfits, append_oq s _ _ _⟩
    · exact .inl (s.post_oq _)
    · exact .inl (s.post_oq _)
    · exact .inl rfl
  · exact .inl rfl

@[simp] theorem State.requestSpace_records (vp n : Nat) : (s.requestSpace vp n).oq.records = s.oq.records := by
  unfold State.requestSpace
  split
  · rfl
  · rw [State.holdStack, State.post_oq]
    rfl

@[simp] theorem State.requestSpace_nextNumber (vp n : Nat) : (s.requestSpace vp n).oq.nextNumber = s.oq.nextNumber := by
  unfold State.requestSpace
  split
  · rfl
  · rw [State.holdStack, State.post_oq]
    rfl

@[simp] theorem State.completionTest_records (vp : Nat) : (s.completionTest vp).oq.records = s.oq.records := by
  unfold State.completionTest
  split
  · rfl
  · split <;> simp

@[simp] theorem State.completionTest_nextNumber (vp : Nat) :
    (s.completionTest vp).oq.nextNumber = s.oq.nextNumber := by
  unfold State.completionTest
  split
  · rfl
  · split <;> simp

end

/-- Everything the first part of an abort can be: nothing, or the offer of the record of an entry in QCWAIT (R74). -/
theorem offerAborted_cases (s : State) (e : SweepEntry) (w : AbortReason) :
    s.offerAborted e w = s ∨ ∃ l d q, e.state = .qcWait ∧ e.lane = some l ∧
      s.offerAborted e w = s.offerSweep e s.lanes[l] d q := by
  unfold State.offerAborted
  split
  · rename_i d q l _ hlane
    split
    · rename_i hwaits
      exact .inr ⟨l, d, q, hwaits, hlane, rfl⟩
    · exact .inl rfl
  · exact .inl rfl

section
variable {s : State}

theorem offerSweep_numbered (e : SweepEntry) (l : Lane) (d : Disposition) (q : Option QcRecord) (h : s.oq.Numbered) :
    (s.offerSweep e l d q).oq.Numbered := by
  obtain hsame | ⟨k, -, -, -, happend⟩ := offerSweep_oq s e l d q
  · rw [hsame]
    exact h
  · rw [happend]
    exact h.appended _ _ _

theorem offerAborted_numbered (e : SweepEntry) (w : AbortReason) (h : s.oq.Numbered) :
    (s.offerAborted e w).oq.Numbered := by
  obtain hsame | ⟨l, d, q, -, -, hoffer⟩ := offerAborted_cases s e w
  · rw [hsame]
    exact h
  · rw [hoffer]
    exact offerSweep_numbered e _ d q h

theorem abortSweep_numbered (e : SweepEntry) (w : AbortReason) (h : s.oq.Numbered) : (s.abortSweep e w).oq.Numbered := by
  have hgone : (((s.offerAborted e w).withoutSweep e).post (.swAbort e.tag e.vp e.number w.cause)).oq.Numbered := by
    rw [State.post_oq]
    exact offerAborted_numbered e w h
  unfold State.abortSweep
  rw [State.leave_abort]
  dsimp only
  split
  · exact hgone
  · refine hgone.congr ?_ ?_ <;> simp

theorem mergeSweep_numbered (e : SweepEntry) (l : Lane) (d : Disposition) (h : s.oq.Numbered) :
    (s.mergeSweep e l d).oq.Numbered := by
  have hoffer := offerSweep_numbered (s := s.updStack e.vp fun k => k.mergeSweep e l.result) e l d e.qc h
  rw [State.mergeSweep_eq]
  refine hoffer.congr ?_ ?_ <;> simp [State.withoutSweep]

theorem foldl_abort_numbered (w : AbortReason) (l : List SweepEntry) (s : State) (h : s.oq.Numbered) :
    (l.foldl (fun s e => s.abortSweep e w) s).oq.Numbered := by
  induction l generalizing s with
  | nil => exact h
  | cons e l ih => exact ih _ (abortSweep_numbered e w h)

theorem OutputQueue.Numbered.tail {q : OutputQueue} {r : OutRecord} {rest : List OutRecord} (h : q.Numbered)
    (hrecords : q.records = r :: rest) : ({ q with records := rest, readPosition := 0 } : OutputQueue).Numbered := by
  obtain ⟨counter, rising, last⟩ := h
  rw [hrecords] at rising last
  refine ⟨counter, fun i x x' hx hx' => rising (i + 1) x x' hx hx', fun x hx => last x ?_⟩
  dsimp only at hx
  rw [List.getLast?_cons, hx]
  rfl

theorem Change.numbered {D : Prop} {t : State} (h : Change D s t) (hs : s.oq.Numbered) : t.oq.Numbered := by
  cases h with
  | announced p a k _ _ => rw [announce_eq]; exact hs
  | aborted e w _ _ => exact abortSweep_numbered e w hs
  | merged e x l y d _ _ _ _ => exact mergeSweep_numbered e y d hs
  | blocks position effective pending => exact hs.congr rfl rfl
  | released r rest hrecords => exact (hs.tail hrecords).congr (by simp) (by simp)
  | closed vp k _ _ => exact hs.congr (by simp) (by simp)
  | engineReset =>
    exact ⟨hs.counter, fun i r r' hr => by simp [State.engineReset, OutputQueue.engineReset, OutputQueue.reset] at hr,
      fun r hr => by simp [State.engineReset, OutputQueue.engineReset, OutputQueue.reset] at hr⟩
  | _ => exact hs

theorem TableChange.numbered {t : State} (h : TableChange s t) (hs : s.oq.Numbered) : t.oq.Numbered := by
  cases h with
  | opened p k _ _ _ => exact hs
  | discarded vp k _ =>
    obtain ⟨-, hcase⟩ | ⟨-, -, hcase⟩ | ⟨-, -, hcase⟩ | ⟨-, hcase⟩ := s.discardStack_cases k
    · rw [hcase]
      exact foldl_abort_numbered .discarded _ s hs
    · rw [hcase]
      exact hs.congr (State.serve_records _) (State.serve_nextNumber _)
    · rw [hcase]
      exact hs.congr rfl rfl
    · rw [hcase]
      exact hs.congr (State.serve_records _) (State.serve_nextNumber _)
  | finalized vp k _ _ =>
    have hunreserved : (s.unreserve k.settings.vp).oq.Numbered := hs.congr rfl rfl
    unfold State.finalize
    dsimp only
    rw [State.post_oq]
    show (State.append _ _ _ _).oq.Numbered
    rw [append_oq]
    exact hunreserved.appended _ _ _

theorem numbered_of_empty {q : OutputQueue} (hrecords : q.records = []) (hq : 1 ≤ q.nextNumber)
    (hq' : q.nextNumber ≤ Config.recordLimit) : q.Numbered :=
  ⟨⟨hq, hq'⟩, fun i r r' hr => by simp [hrecords] at hr, fun r hr => by simp [hrecords] at hr⟩

/-- Settles O16: records join at the end with the counter's number and leave from the front. -/
theorem everyStepKeepsRecordNumbersRising : Obligations.EveryStepKeepsRecordNumbersRising := by
  unfold Obligations.EveryStepKeepsRecordNumbersRising
  intro s t hs hstep
  exact step_keeps (D := False) (L := fun s => s.oq.Numbered) (fun s straps => numbered_of_empty rfl (Nat.le_refl 1) (show 1 ≤ Config.recordLimit by decide))
    (fun s hs => numbered_of_empty rfl hs.counter.1 hs.counter.2) (fun _ _ h => h.numbered) (fun _ _ h => h.numbered)
    (by simp) hs hstep

end

/-! ### One entry leaves a list of distinct tags -/

theorem eq_of_tag_eq {l : List SweepEntry} (h : (l.map (·.tag)).Nodup) {x y : SweepEntry} (hx : x ∈ l) (hy : y ∈ l)
    (htag : x.tag = y.tag) : x = y :=
  List.inj_on_of_nodup_map h hx hy htag

/-- With distinct tags, an entry is its list less the others. -/
theorem perm_cons_filter_tag {l : List SweepEntry} (h : (l.map (·.tag)).Nodup) {x : SweepEntry} (hx : x ∈ l) :
    l.Perm (x :: l.filter fun y => y.tag != x.tag) := by
  have hother : (l.filter fun y => y.tag != x.tag) = l.erase x := by
    rw [(List.Nodup.of_map _ h).erase_eq_filter]
    refine List.filter_congr fun y hy => ?_
    have hsame : y.tag = x.tag ↔ y = x := ⟨eq_of_tag_eq h hy hx, congrArg _⟩
    rw [Bool.eq_iff_iff]
    simp only [bne_iff_ne, ne_eq, hsame]
  rw [hother]
  exact List.perm_cons_erase hx

theorem countP_filter_tag {l : List SweepEntry} (h : (l.map (·.tag)).Nodup) {x : SweepEntry} (hx : x ∈ l)
    (p : SweepEntry → Bool) :
    l.countP p = (l.filter fun y => y.tag != x.tag).countP p + if p x then 1 else 0 := by
  rw [(perm_cons_filter_tag h hx).countP_eq, List.countP_cons]

theorem abortSweep_tagsDistinct {s : State} (e : SweepEntry) (w : AbortReason) (h : s.TagsDistinct) :
    (s.abortSweep e w).TagsDistinct := by
  refine ⟨?_, ?_⟩
  · rw [State.abortSweep_sweeps]
    exact h.tags.sublist (List.filter_sublist.map _)
  · rw [← tableSettings_vps, abortSweep_tableSettings, tableSettings_vps]
    exact h.vps

/-- A run of aborts of listed sweeps keeps what one of them keeps. -/
theorem foldl_abort_keeps {L : State → Prop} {w : AbortReason}
    (hL : ∀ s e, s.TagsDistinct → e ∈ s.sweeps → L s → L (s.abortSweep e w)) (l : List SweepEntry) {s : State}
    (htags : s.TagsDistinct) (hl : (l.map (·.tag)).Nodup) (hlisted : ∀ e ∈ l, e ∈ s.sweeps) (hs : L s) :
    L (l.foldl (fun s e => s.abortSweep e w) s) := by
  induction l generalizing s with
  | nil => exact hs
  | cons e l ih =>
    obtain ⟨hfresh, hl⟩ := List.nodup_cons.mp hl
    refine ih (abortSweep_tagsDistinct e w htags) hl (fun x hx => ?_) (hL s e htags (hlisted e (by simp)) hs)
    have hne : x.tag ≠ e.tag := fun heq => hfresh (List.mem_map.mpr ⟨x, hx, heq⟩)
    simp [hlisted x (by simp [hx]), hne]

theorem discardSweeps_keeps {L : State → Prop}
    (hL : ∀ s e, s.TagsDistinct → e ∈ s.sweeps → L s → L (s.abortSweep e .discarded)) {s : State} (vp : Nat)
    (htags : s.TagsDistinct) (hs : L s) : L (s.discardSweeps vp) :=
  foldl_abort_keeps hL _ htags (htags.tags.sublist (List.filter_sublist.map _)) (fun _ he => (List.mem_filter.mp he).1) hs

/-! ### The slot law -/

section
variable {s t : State}

/-- The slot law reads the slots, and of the entries their references and lengths. -/
theorem State.SlotsLawful.map (h : s.SlotsLawful) (hslots : t.slots = s.slots) {f : SweepEntry → SweepEntry}
    (hf : ∀ e, (f e).Same e) (hsweeps : t.sweeps = s.sweeps.map f) : t.SlotsLawful := by
  obtain ⟨held, counted, ready, bound⟩ := h
  refine ⟨by rw [hslots]; exact held, fun i => ?_, by rw [hslots]; exact ready, fun e he i href => ?_⟩
  · rw [hslots, counted i, State.naming, State.naming, hsweeps, List.countP_map]
    refine List.countP_congr fun e _ => ?_
    simp [(hf e).reference]
  · rw [hsweeps] at he
    obtain ⟨x, hx, rfl⟩ := List.mem_map.mp he
    rw [hslots, (hf x).length]
    exact bound x hx i ((hf x).reference ▸ href)

theorem State.SlotsLawful.congr (h : s.SlotsLawful) (hslots : t.slots = s.slots) (hsweeps : t.sweeps = s.sweeps) :
    t.SlotsLawful :=
  h.map hslots SweepEntry.Same.refl (by simpa using hsweeps)

theorem State.SlotsLawful.updSweep (h : s.SlotsLawful) (tag : Nat) (f : SweepEntry → SweepEntry)
    (hf : ∀ e, (f e).Same e) : (s.updSweep tag f).SlotsLawful := by
  refine State.SlotsLawful.map h (t := s.updSweep tag f) rfl (f := fun e => if e.tag = tag then f e else e) (fun e => ?_) rfl
  split
  · exact hf e
  · exact .refl e

theorem releasedSlots_get (slots : Vector RefSlot 8) (r : Reference) (i : Fin 8) :
    (releasedSlots slots r)[i] = if r = .slot i then { slots[i] with useCount := slots[i].useCount - 1 } else slots[i] := by
  cases r with
  | slot j =>
    rw [releasedSlots, table_set]
    by_cases hij : j = i
    · subst hij
      simp
    · rw [if_neg hij, if_neg (by simpa using hij)]
  | pilot c shift => simp [releasedSlots]

theorem namedSlots_get (slots : Vector RefSlot 8) (r : Reference) (i : Fin 8) :
    (namedSlots slots r)[i] = if r = .slot i then { slots[i] with useCount := slots[i].useCount + 1 } else slots[i] := by
  cases r with
  | slot j =>
    rw [namedSlots, table_set]
    by_cases hij : j = i
    · subst hij
      simp
    · rw [if_neg hij, if_neg (by simpa using hij)]
  | pilot c shift => simp [namedSlots]

theorem RefSlot.Held.setUseCount {x : RefSlot} (h : x.Held) (n : Nat) : ({ x with useCount := n } : RefSlot).Held := h

/-- A sweep that leaves gives back its use of its slot (R44). -/
theorem State.SlotsLawful.leave (h : s.SlotsLawful) (htags : s.TagsDistinct) {x : SweepEntry} (hx : x ∈ s.sweeps)
    (hslots : t.slots = releasedSlots s.slots x.reference)
    (hsweeps : t.sweeps = s.sweeps.filter fun y => y.tag != x.tag) : t.SlotsLawful := by
  have hcount (i : Fin 8) : s.naming i = t.naming i + if x.reference = .slot i then 1 else 0 := by
    simpa [State.naming, hsweeps] using countP_filter_tag htags.tags hx fun e => decide (e.reference = .slot i)
  refine ⟨fun i => ?_, fun i => ?_, fun i => ?_, fun e he i href => ?_⟩
  · rw [hslots, releasedSlots_get]
    split
    · exact (h.held i).setUseCount _
    · exact h.held i
  · have hi := hcount i
    rw [← h.counted i] at hi
    rw [hslots, releasedSlots_get]
    split at hi
    · rename_i href
      rw [if_pos href, hi]
      rfl
    · rename_i href
      rw [if_neg href, hi]
      rfl
  · rw [hslots, releasedSlots_get]
    split
    · intro hstate
      dsimp only at hstate ⊢
      rw [h.ready i hstate]
    · exact h.ready i
  · rw [hsweeps] at he
    obtain ⟨hstate, hlength⟩ := h.bound e (List.mem_filter.mp he).1 i href
    rw [hslots, releasedSlots_get]
    split <;> exact ⟨hstate, hlength⟩

/-- A slot that no entry names may be changed (R45, R46, R48, R49). -/
theorem State.SlotsLawful.setSlot (h : s.SlotsLawful) {i : Fin 8} {x : RefSlot}
    (hfree : s.slots[i].state ≠ .ready ∨ s.slots[i].useCount = 0) (hheld : s.slots[i].Held → x.Held)
    (hcount : s.slots[i].useCount = 0 → x.useCount = 0) :
    State.SlotsLawful { s with slots := s.slots.set i x } := by
  have hzero : s.slots[i].useCount = 0 := hfree.elim (h.ready i) id
  have hunnamed : ∀ e ∈ s.sweeps, e.reference ≠ .slot i := by
    have hnaming := h.counted i
    rw [hzero, eq_comm, State.naming, List.countP_eq_zero] at hnaming
    simpa using hnaming
  refine ⟨fun j => ?_, fun j => ?_, fun j => ?_, fun e he j href => ?_⟩
  · rw [table_set]
    split
    · exact hheld (h.held i)
    · exact h.held j
  · rw [table_set]
    split
    · rename_i hij
      subst hij
      rw [hcount hzero, ← hzero]
      exact h.counted i
    · exact h.counted j
  · rw [table_set]
    split
    · intro _
      exact hcount hzero
    · exact h.ready j
  · have hij : i ≠ j := fun hij => hunnamed e he (hij ▸ href)
    rw [table_set_other _ _ hij]
    exact h.bound e he j href

/-- What an announcement that is not refused says of its stack and its reference (R59). -/
theorem stackRefusal_eq_none {a : Announcement} {k : Stack} (h : stackRefusal s a k = none) :
    k.state = .opened ∧ a.number ≤ k.settings.expected ∧
      (k.map[a.number - 1]?).map MapEntry.mayAnnounce = some true ∧ referenceRefusal s a = none := by
  unfold stackRefusal at h
  split_ifs at h with hstate hrange
  split at h
  · rename_i hm
    exact ⟨by simpa using hstate, by omega, by simp [hm, MapEntry.mayAnnounce], (Option.or_eq_none_iff.mp h).1⟩
  · rename_i hm
    exact ⟨by simpa using hstate, by omega, by simp [hm, MapEntry.mayAnnounce], (Option.or_eq_none_iff.mp h).1⟩
  all_goals cases h

theorem referenceRefusal_slot {a : Announcement} {i : Fin 8} (h : referenceRefusal s a = none)
    (href : a.reference = .slot i) : s.slots[i].state = .ready ∧ s.slots[i].declared = some a.length := by
  unfold referenceRefusal at h
  rw [href] at h
  dsimp only at h
  split_ifs at h with hstate hlength
  exact ⟨not_not.mp hstate, not_not.mp hlength⟩

/-- An announced sweep counts one use of the slot it names (R44, R61). -/
theorem State.SlotsLawful.announce (h : s.SlotsLawful) {a : Announcement} {k : Stack}
    (hcheck : announceCheck s a = .ok k) : (announce s a k).SlotsLawful := by
  obtain ⟨-, -, -, hrefusal⟩ := announceCheck_eq_ok hcheck
  obtain ⟨-, -, -, hreference⟩ := stackRefusal_eq_none hrefusal
  rw [announce_eq]
  refine ⟨fun i => ?_, fun i => ?_, fun i => ?_, fun e he i href => ?_⟩
  · dsimp only
    rw [namedSlots_get]
    split
    · exact (h.held i).setUseCount _
    · exact h.held i
  · dsimp only
    rw [namedSlots_get, State.naming, List.countP_append, List.countP_singleton]
    have hcount := h.counted i
    rw [State.naming] at hcount
    by_cases href : a.reference = .slot i
    · simp [-Fin.getElem_fin, href, newEntry, hcount]
    · simp [-Fin.getElem_fin, href, newEntry, hcount]
  · dsimp only
    rw [namedSlots_get]
    split
    · rename_i href
      exact fun hstate => absurd (referenceRefusal_slot hreference href).1 hstate
    · exact h.ready i
  · have hbound : s.slots[i].state = .ready ∧ s.slots[i].declared = some e.length := by
      obtain he | he := List.mem_append.mp he
      · exact h.bound e he i href
      · rw [List.mem_singleton.mp he] at href ⊢
        exact referenceRefusal_slot hreference href
    dsimp only
    rw [namedSlots_get]
    split <;> exact hbound

/-- An engine reset leaves no sweep and READY slots without a use (R55). -/
theorem State.SlotsLawful.engineReset (h : s.SlotsLawful) : s.engineReset.SlotsLawful := by
  have hslot (i : Fin 8) : s.engineReset.slots[i] = s.slots[i].engineReset := mapTable_get _ _ _
  refine ⟨fun i => ?_, fun i => ?_, fun i => ?_, fun e he => by simp [State.engineReset] at he⟩
  · have hheld := h.held i
    rw [hslot, RefSlot.engineReset]
    split
    · exact hheld.setUseCount 0
    · exact ⟨rfl, rfl⟩
    · exact ⟨rfl, rfl⟩
  · rw [hslot, RefSlot.engineReset]
    split <;> simp [State.naming, State.engineReset, RefSlot.reset]
  · intro _
    rw [hslot, RefSlot.engineReset]
    split <;> simp [RefSlot.reset]

theorem Change.slotsLawful (h : Change True s t) (htags : s.TagsDistinct) (hs : s.SlotsLawful) : t.SlotsLawful := by
  cases h with
  | slot i x hfree hheld hcount => exact hs.setSlot hfree hheld hcount
  | readied =>
    exact State.SlotsLawful.map hs (t := s.readinessAll) rfl (f := fun e => { e with state := readiness s.ports e })
      (fun e => ⟨rfl, rfl, rfl, rfl, rfl, rfl, rfl⟩) rfl
  | announced p a k _ hcheck => exact hs.announce hcheck
  | aborted e w he _ => exact hs.leave htags (he trivial) (by simp) (by simp)
  | granted e k l r clips _ _ _ _ =>
    exact (hs.updSweep e.tag (·.grantedTo l) fun x => ⟨rfl, rfl, rfl, rfl, rfl, rfl, rfl⟩).congr rfl rfl
  | waits e l limit _ _ _ _ =>
    exact (hs.updSweep e.tag (fun x => { x with state := .qcWait, qcTimer := some limit })
      fun x => ⟨rfl, rfl, rfl, rfl, rfl, rfl, rfl⟩).congr rfl rfl
  | merged e x l y d hx hsame _ _ =>
    exact hs.leave htags hx (by simp [hsame.reference]) (by simp [hsame.tag])
  | stored e r _ _ _ =>
    exact hs.updSweep e.tag (fun x => { x with qc := some r }) fun x => ⟨rfl, rfl, rfl, rfl, rfl, rfl, rfl⟩
  | released r rest _ => exact hs.congr (by simp) (by simp)
  | closed vp k _ _ => exact hs.congr (by simp) (by simp)
  | engineReset => exact hs.engineReset
  | _ => exact hs.congr rfl rfl

theorem TableChange.slotsLawful (h : TableChange s t) (htags : s.TagsDistinct) (hs : s.SlotsLawful) : t.SlotsLawful := by
  cases h with
  | opened p k _ _ _ => exact hs.congr rfl rfl
  | discarded vp k _ =>
    obtain ⟨-, hcase⟩ | ⟨-, -, hcase⟩ | ⟨-, -, hcase⟩ | ⟨-, hcase⟩ := s.discardStack_cases k
    · rw [hcase]
      have hdiscard : (s.discardSweeps k.settings.vp).SlotsLawful :=
        discardSweeps_keeps (fun s e htags he hs => hs.leave htags he (by simp) (by simp)) _ htags hs
      exact hdiscard.congr rfl rfl
    · rw [hcase]
      exact hs.congr (by simp) (by simp)
    · rw [hcase]
      exact hs.congr rfl rfl
    · rw [hcase]
      exact hs.congr (by simp) (by simp)
  | finalized vp k _ _ => exact hs.congr (by simp [State.finalize]) (by simp [State.finalize])

theorem slotsLawful_of_reset (hslots : s.slots = State.reset.slots) (hsweeps : s.sweeps = []) : s.SlotsLawful := by
  have hslot (i : Fin 8) : s.slots[i] = RefSlot.reset := by simp [hslots, State.reset]
  refine ⟨fun i => ?_, fun i => ?_, fun i _ => ?_, fun e he => by simp [hsweeps] at he⟩
  · rw [hslot]
    exact ⟨rfl, rfl⟩
  · rw [hslot, State.naming, hsweeps]
    rfl
  · rw [hslot]
    rfl

/-- Settles O12: an announcement and a leaving sweep move the use count with the list; only an unnamed slot is changed. -/
theorem everyStepKeepsTheSlotLaw : Obligations.EveryStepKeepsTheSlotLaw := by
  unfold Obligations.EveryStepKeepsTheSlotLaw
  intro s t htags hs hstep
  exact (step_keeps (D := True) (L := fun s => s.TagsDistinct ∧ s.SlotsLawful)
    (fun s straps => ⟨powerOn_tagsDistinct s straps, slotsLawful_of_reset rfl rfl⟩)
    (fun s _ => ⟨fullReset_tagsDistinct s, slotsLawful_of_reset rfl rfl⟩)
    (fun _ _ h hs => ⟨h.tagsDistinct hs.1, h.slotsLawful hs.1 hs.2⟩)
    (fun _ _ h hs => ⟨h.tagsDistinct hs.1, h.slotsLawful hs.1 hs.2⟩) (fun _ => htags.tags) ⟨htags, hs⟩ hstep).2

end

end Sys2Proof.Machine
end

section
/-! The lane law is kept by every step (R67, R71, R83, R107). -/

namespace Sys2Proof.Machine

section
variable {s t : State}

/-! ### What the lane law says of an entry and of a lane -/

/-- The lane law of an entry by itself: its timer and its record. -/
structure SweepEntry.QcLaw (e : SweepEntry) : Prop where
  timer : e.qcTimer.isSome = true ↔ e.state = .qcWait
  waits : e.state = .qcWait → e.qc = none
  record : ∀ q, e.qc = some q → q.verdict = .pass ∨ q.verdict = .note

theorem State.LanesLawful.qcLaw (h : s.LanesLawful) {e : SweepEntry} (he : e ∈ s.sweeps) : e.QcLaw :=
  ⟨h.timer e he, h.waits e he, h.record e he⟩

theorem State.LanesLawful.of_lane_none (h : s.LanesLawful) {e : SweepEntry} (he : e ∈ s.sweeps) (hlane : e.lane = none) :
    e.state.laneState = none := by
  simpa [hlane] using h.entry e he

theorem State.LanesLawful.of_lane_some (h : s.LanesLawful) {e : SweepEntry} (he : e ∈ s.sweeps) {l : Fin 4}
    (hlane : e.lane = some l) : s.lanes[l].held = some e.tag ∧ e.state.laneState = some s.lanes[l].state := by
  simpa [hlane] using h.entry e he

theorem State.LanesLawful.of_held (h : s.LanesLawful) {l : Fin 4} {tag : Nat} (hheld : s.lanes[l].held = some tag) :
    ∃ e ∈ s.sweeps, e.tag = tag ∧ e.lane = some l := by
  have hl := h.lane l
  rw [hheld] at hl
  exact hl

theorem State.LanesLawful.of_unheld (h : s.LanesLawful) {l : Fin 4} (hheld : s.lanes[l].held = none) :
    s.lanes[l].state = .idle := by
  have hl := h.lane l
  rw [hheld] at hl
  exact hl

/-- An entry's state never goes with an IDLE lane (R83). -/
theorem SweepState.laneState_ne_idle (st : SweepState) : st.laneState ≠ some .idle := by
  cases st <;> simp [SweepState.laneState]

theorem State.LanesLawful.held_of_idle (h : s.LanesLawful) {l : Fin 4} (hidle : s.lanes[l].state = .idle) :
    s.lanes[l].held = none := by
  cases hheld : s.lanes[l].held with
  | none => rfl
  | some tag =>
    obtain ⟨e, he, -, hlane⟩ := h.of_held hheld
    exact absurd (hidle ▸ (h.of_lane_some he hlane).2) e.state.laneState_ne_idle

/-- The lane that holds a listed entry's tag is that entry's lane. -/
theorem State.LanesLawful.lane_of_held (h : s.LanesLawful) (htags : s.TagsDistinct) {e : SweepEntry} (he : e ∈ s.sweeps)
    {l : Fin 4} (hheld : s.lanes[l].held = some e.tag) : e.lane = some l := by
  obtain ⟨x, hx, htag, hlane⟩ := h.of_held hheld
  exact eq_of_tag_eq htags.tags hx he htag ▸ hlane

/-- No two entries have one lane. -/
theorem State.LanesLawful.eq_of_lane (h : s.LanesLawful) (htags : s.TagsDistinct) {x y : SweepEntry} (hx : x ∈ s.sweeps)
    (hy : y ∈ s.sweeps) {l : Fin 4} (hxl : x.lane = some l) (hyl : y.lane = some l) : x = y := by
  have hheld := (h.of_lane_some hx hxl).1.symm.trans (h.of_lane_some hy hyl).1
  exact eq_of_tag_eq htags.tags hx hy (Option.some.inj hheld)

theorem lanesLawful_intro (hnone : ∀ e ∈ s.sweeps, e.lane = none → e.state.laneState = none)
    (hsome : ∀ e ∈ s.sweeps, ∀ l : Fin 4, e.lane = some l →
      s.lanes[l].held = some e.tag ∧ e.state.laneState = some s.lanes[l].state)
    (hunheld : ∀ l : Fin 4, s.lanes[l].held = none → s.lanes[l].state = .idle)
    (hheld : ∀ (l : Fin 4) (tag : Nat), s.lanes[l].held = some tag → ∃ e ∈ s.sweeps, e.tag = tag ∧ e.lane = some l)
    (hqc : ∀ e ∈ s.sweeps, e.QcLaw) : s.LanesLawful := by
  refine ⟨fun e he => ?_, fun l => ?_, fun e he => (hqc e he).timer, fun e he => (hqc e he).waits,
    fun e he => (hqc e he).record⟩
  · split
    · exact hnone e he (by assumption)
    · exact hsome e he _ (by assumption)
  · split
    · exact hunheld l (by assumption)
    · exact hheld l _ (by assumption)

/-! ### Changes that move no entry between lanes -/

/-- The lane law reads the lanes, and of the entries their tags, lanes, lane states, timers and records. -/
theorem State.LanesLawful.map (h : s.LanesLawful) (hlanes : t.lanes = s.lanes) {f : SweepEntry → SweepEntry}
    (hsweeps : t.sweeps = s.sweeps.map f)
    (hf : ∀ e ∈ s.sweeps, (f e).tag = e.tag ∧ (f e).lane = e.lane ∧ (f e).state.laneState = e.state.laneState ∧
      (f e).QcLaw) : t.LanesLawful := by
  have hmem : ∀ e ∈ t.sweeps, ∃ x ∈ s.sweeps, e = f x := by
    rw [hsweeps]
    intro e he
    obtain ⟨x, hx, rfl⟩ := List.mem_map.mp he
    exact ⟨x, hx, rfl⟩
  refine lanesLawful_intro ?_ ?_ ?_ ?_ ?_
  · intro e he hlane
    obtain ⟨x, hx, rfl⟩ := hmem e he
    obtain ⟨-, hxlane, hxstate, -⟩ := hf x hx
    exact hxstate.trans (h.of_lane_none hx (hxlane.symm.trans hlane))
  · intro e he l hlane
    obtain ⟨x, hx, rfl⟩ := hmem e he
    obtain ⟨hxtag, hxlane, hxstate, -⟩ := hf x hx
    rw [hlanes, hxtag, hxstate]
    exact h.of_lane_some hx (hxlane.symm.trans hlane)
  · rw [hlanes]
    exact fun l => h.of_unheld
  · rw [hlanes, hsweeps]
    intro l tag hheld
    obtain ⟨x, hx, htag, hlane⟩ := h.of_held hheld
    obtain ⟨hxtag, hxlane, -, -⟩ := hf x hx
    exact ⟨f x, List.mem_map_of_mem hx, hxtag.trans htag, hxlane.trans hlane⟩
  · intro e he
    obtain ⟨x, hx, rfl⟩ := hmem e he
    exact (hf x hx).2.2.2

theorem State.LanesLawful.congr (h : s.LanesLawful) (hlanes : t.lanes = s.lanes) (hsweeps : t.sweeps = s.sweeps) :
    t.LanesLawful :=
  h.map hlanes (f := id) (by simpa using hsweeps) fun _ he => ⟨rfl, rfl, rfl, h.qcLaw he⟩

/-- The readiness test moves an entry only among the states that no lane goes with (R63). -/
theorem readiness_cases (ports : Vector Port 4) (e : SweepEntry) :
    readiness ports e = e.state ∨
      (e.state.laneState = none ∧ (readiness ports e).laneState = none) := by
  unfold readiness
  split_ifs with hplace hpast hstarted
  · exact .inr ⟨by obtain h | h := hplace <;> rw [h] <;> rfl, rfl⟩
  · exact .inr ⟨by rw [hstarted.1]; rfl, rfl⟩
  · exact .inl rfl
  · exact .inl rfl

theorem readiness_laneState (ports : Vector Port 4) (e : SweepEntry) :
    (readiness ports e).laneState = e.state.laneState := by
  obtain h | ⟨h, h'⟩ := readiness_cases ports e
  · rw [h]
  · rw [h, h']

theorem laneState_eq_qcWait (st : SweepState) : st.laneState = some .qcWait ↔ st = .qcWait := by
  cases st <;> simp [SweepState.laneState]

theorem readiness_qcWait (ports : Vector Port 4) (e : SweepEntry) :
    readiness ports e = .qcWait ↔ e.state = .qcWait := by
  rw [← laneState_eq_qcWait, readiness_laneState, laneState_eq_qcWait]

theorem State.LanesLawful.readinessAll (h : s.LanesLawful) : s.readinessAll.LanesLawful := by
  refine State.LanesLawful.map h (t := s.readinessAll) rfl rfl fun e he => ⟨rfl, rfl, readiness_laneState s.ports e, ?_⟩
  obtain ⟨timer, waits, record⟩ := h.qcLaw he
  exact ⟨timer.trans (readiness_qcWait s.ports e).symm, fun hstate => waits ((readiness_qcWait s.ports e).mp hstate), record⟩

/-- A stored record stands at an entry that does not wait (R107). -/
theorem State.LanesLawful.store (h : s.LanesLawful) (htags : s.TagsDistinct) {e : SweepEntry} {r : QcRecord}
    (he : e ∈ s.sweeps) (hplace : e.state ≠ .qcWait ∨ e.lane = none) (hverdict : r.verdict = .pass ∨ r.verdict = .note) :
    (s.updSweep e.tag fun x => { x with qc := some r }).LanesLawful := by
  have hstate : e.state ≠ .qcWait := by
    obtain hstate | hlane := hplace
    · exact hstate
    · intro hstate
      simpa [hstate, SweepState.laneState] using h.of_lane_none he hlane
  refine State.LanesLawful.map h (t := s.updSweep e.tag _) rfl rfl fun x hx => ?_
  have hq := h.qcLaw hx
  split
  · rename_i htag
    rw [eq_of_tag_eq htags.tags hx he htag] at hq ⊢
    refine ⟨rfl, rfl, rfl, hq.timer, fun hwaits => absurd hwaits hstate, fun q hq => ?_⟩
    cases hq
    exact hverdict
  · exact ⟨rfl, rfl, rfl, hq⟩

/-- A new entry has no lane (R61). -/
theorem State.LanesLawful.announce (h : s.LanesLawful) (a : Announcement) (k : Stack) :
    (announce s a k).LanesLawful := by
  rw [announce_eq]
  have hnew : (newState s (newEntry a k)).laneState = none := readiness_laneState s.ports (newEntry a k)
  have hwaits : newState s (newEntry a k) ≠ .qcWait := fun hstate => by simp [hstate, SweepState.laneState] at hnew
  refine lanesLawful_intro ?_ ?_ ?_ ?_ ?_
  · intro e he hlane
    obtain he | he := List.mem_append.mp he
    · exact h.of_lane_none he hlane
    · rw [List.mem_singleton.mp he]
      exact hnew
  · intro e he l hlane
    obtain he | he := List.mem_append.mp he
    · exact h.of_lane_some he hlane
    · rw [List.mem_singleton.mp he] at hlane
      cases hlane
  · exact fun l => h.of_unheld
  · intro l tag hheld
    obtain ⟨x, hx, htag, hlane⟩ := h.of_held hheld
    exact ⟨x, List.mem_append_left _ hx, htag, hlane⟩
  · intro e he
    obtain he | he := List.mem_append.mp he
    · exact h.qcLaw he
    · rw [List.mem_singleton.mp he]
      exact ⟨⟨nofun, (absurd · hwaits)⟩, fun _ => rfl, nofun⟩

/-! ### Entries that take, keep or leave a lane -/

theorem freedLanes_get (lanes : Vector Lane 4) (o : Option (Fin 4)) (l : Fin 4) :
    (freedLanes lanes o)[l] = if o = some l then Lane.reset else lanes[l] := by
  cases o with
  | none => simp [freedLanes]
  | some m =>
    rw [freedLanes, table_set]
    by_cases hml : m = l
    · simp [hml]
    · rw [if_neg hml, if_neg (by simpa using hml)]

/-- A sweep that leaves frees its lane (R72, R74). -/
theorem State.LanesLawful.leave (h : s.LanesLawful) (htags : s.TagsDistinct) {x : SweepEntry} (hx : x ∈ s.sweeps)
    (hlanes : t.lanes = freedLanes s.lanes x.lane) (hsweeps : t.sweeps = s.sweeps.filter fun y => y.tag != x.tag) :
    t.LanesLawful := by
  have hmem : ∀ e, e ∈ t.sweeps ↔ e ∈ s.sweeps ∧ e.tag ≠ x.tag := by simp [hsweeps]
  have hother : ∀ e ∈ t.sweeps, ∀ l, e.lane = some l → x.lane ≠ some l := by
    intro e he l hl hxl
    obtain ⟨he, hne⟩ := (hmem e).mp he
    exact hne (congrArg _ (h.eq_of_lane htags he hx hl hxl))
  refine lanesLawful_intro ?_ ?_ ?_ ?_ ?_
  · intro e he
    exact h.of_lane_none ((hmem e).mp he).1
  · intro e he l hlane
    rw [hlanes, freedLanes_get, if_neg (hother e he l hlane)]
    exact h.of_lane_some ((hmem e).mp he).1 hlane
  · intro l
    rw [hlanes, freedLanes_get]
    split
    · exact fun _ => rfl
    · exact h.of_unheld
  · intro l tag
    rw [hlanes, freedLanes_get]
    split
    · intro hheld
      cases hheld
    · rename_i hxl
      intro hheld
      obtain ⟨e, he, htag, hlane⟩ := h.of_held hheld
      have hne : e.tag ≠ x.tag := fun heq => hxl (eq_of_tag_eq htags.tags he hx heq ▸ hlane)
      exact ⟨e, (hmem e).mpr ⟨he, hne⟩, htag, hlane⟩
  · intro e he
    exact h.qcLaw ((hmem e).mp he).1

/-- A sweep moves to, or on in, a lane that holds no other (R67, R68, R71). -/
theorem State.LanesLawful.move (h : s.LanesLawful) (htags : s.TagsDistinct) {e : SweepEntry} (he : e ∈ s.sweeps)
    {l : Fin 4} {x : Lane} {f : SweepEntry → SweepEntry} (hlanes : t.lanes = s.lanes.set l x)
    (hsweeps : t.sweeps = s.sweeps.map fun y => if y.tag = e.tag then f y else y) (htag : (f e).tag = e.tag)
    (hlane : (f e).lane = some l) (hheld : x.held = some e.tag) (hstate : (f e).state.laneState = some x.state)
    (hqc : (f e).QcLaw) (hfrom : ∀ m, e.lane = some m → m = l) (halone : ∀ y ∈ s.sweeps, y.lane = some l → y = e) :
    t.LanesLawful := by
  have hmem : ∀ y ∈ t.sweeps, y = f e ∨ (y ∈ s.sweeps ∧ y.tag ≠ e.tag) := by
    rw [hsweeps]
    intro y hy
    obtain ⟨z, hz, rfl⟩ := List.mem_map.mp hy
    split
    · rename_i hztag
      rw [eq_of_tag_eq htags.tags hz he hztag]
      exact .inl rfl
    · exact .inr ⟨hz, by assumption⟩
  have hmoved : f e ∈ t.sweeps := by
    rw [hsweeps]
    exact List.mem_map.mpr ⟨e, he, if_pos rfl⟩
  have hkept : ∀ y ∈ s.sweeps, y.tag ≠ e.tag → y ∈ t.sweeps := by
    rw [hsweeps]
    exact fun y hy hne => List.mem_map.mpr ⟨y, hy, if_neg hne⟩
  have helsewhere : ∀ y ∈ s.sweeps, y.tag ≠ e.tag → ∀ m, y.lane = some m → l ≠ m := by
    rintro y hy hne m hm rfl
    exact hne (congrArg _ (halone y hy hm))
  refine lanesLawful_intro ?_ ?_ ?_ ?_ ?_
  · intro y hy hnone
    obtain rfl | ⟨hy, -⟩ := hmem y hy
    · simp [hlane] at hnone
    · exact h.of_lane_none hy hnone
  · intro y hy m hm
    obtain rfl | ⟨hy, hne⟩ := hmem y hy
    · obtain rfl : l = m := Option.some.inj (hlane.symm.trans hm)
      rw [hlanes, table_set_same, htag]
      exact ⟨hheld, hstate⟩
    · rw [hlanes, table_set_other _ _ (helsewhere y hy hne m hm)]
      exact h.of_lane_some hy hm
  · intro m
    rw [hlanes, table_set]
    split
    · simp [hheld]
    · exact h.of_unheld
  · intro m tag
    rw [hlanes, table_set]
    split
    · rename_i hlm
      intro hxheld
      refine ⟨f e, hmoved, ?_, hlm ▸ hlane⟩
      exact htag.trans (Option.some.inj (hheld.symm.trans hxheld))
    · rename_i hlm
      intro hmheld
      obtain ⟨y, hy, hytag, hylane⟩ := h.of_held hmheld
      have hne : y.tag ≠ e.tag := by
        intro heq
        obtain rfl := eq_of_tag_eq htags.tags hy he heq
        exact hlm (hfrom m hylane).symm
      exact ⟨y, hkept y hy hne, hytag, hylane⟩
  · intro y hy
    obtain rfl | ⟨hy, -⟩ := hmem y hy
    · exact hqc
    · exact h.qcLaw hy

/-- A grant puts a READY entry into an IDLE lane (R67, R85). -/
theorem State.LanesLawful.grant (h : s.LanesLawful) (htags : s.TagsDistinct) {e : SweepEntry} (he : e ∈ s.sweeps)
    {l : Fin 4} {x : Lane} (hready : e.state = .ready) (hidle : s.lanes[l].state = .idle) (hheld : x.held = some e.tag)
    (hstate : x.state = .correlating) :
    ((s.updSweep e.tag fun y => y.grantedTo l).setLane l x).LanesLawful := by
  have hq := h.qcLaw he
  refine h.move htags he (f := (·.grantedTo l)) rfl rfl rfl rfl hheld ?_ ⟨?_, ?_, hq.record⟩ ?_ ?_
  · rw [hstate]
    rfl
  · simpa [SweepEntry.grantedTo, hready] using hq.timer
  · simp [SweepEntry.grantedTo]
  · intro m hm
    simpa [hready, SweepState.laneState] using (h.of_lane_some he hm).2
  · intro y hy hyl
    have hx := (h.of_lane_some hy hyl).1
    rw [h.held_of_idle hidle] at hx
    cases hx

/-- A completed job holds its sweep in QCWAIT in the same lane, the timer started (R71). -/
theorem State.LanesLawful.wait (h : s.LanesLawful) (htags : s.TagsDistinct) {e : SweepEntry} (he : e ∈ s.sweeps)
    {l : Fin 4} {x : Lane} (limit : Nat) (hheld : s.lanes[l].held = some e.tag) (hqc : e.qc = none)
    (hxheld : x.held = some e.tag) (hstate : x.state = .qcWait) :
    ((s.setLane l x).updSweep e.tag fun y => { y with state := .qcWait, qcTimer := some limit }).LanesLawful := by
  have hlane := h.lane_of_held htags he hheld
  refine h.move htags he (f := fun y => { y with state := .qcWait, qcTimer := some limit }) rfl rfl rfl hlane hxheld ?_
    ⟨by simp, fun _ => hqc, fun q hq => by simp [hqc] at hq⟩ ?_ ?_
  · rw [hstate]
    rfl
  · exact fun m hm => Option.some.inj (hm.symm.trans hlane)
  · exact fun y hy hyl => h.eq_of_lane htags hy he hyl hlane

theorem lanesLawful_of_reset (hlanes : ∀ l : Fin 4, s.lanes[l] = Lane.reset) (hsweeps : s.sweeps = []) :
    s.LanesLawful := by
  refine lanesLawful_intro ?_ ?_ ?_ ?_ ?_
  · simp [hsweeps]
  · simp [hsweeps]
  · exact fun l _ => by rw [hlanes l]; rfl
  · intro l tag hheld
    rw [hlanes l] at hheld
    cases hheld
  · simp [hsweeps]

/-- In a merge the entry's lane is the one the law gives it. -/
theorem State.LanesLawful.lane_of_merged (h : s.LanesLawful) (htags : s.TagsDistinct) {x : SweepEntry} {l : Fin 4}
    {y : Lane} (hx : x ∈ s.sweeps)
    (hheld : (s.lanes[l].state = .correlating ∧ s.lanes[l].held = some x.tag ∧ y.result = s.lanes[l].jobResult) ∨
      (x.state = .qcWait ∧ x.lane = some l ∧ y.result = s.lanes[l].result)) : x.lane = some l := by
  obtain ⟨-, hheld, -⟩ | ⟨-, hlane, -⟩ := hheld
  · exact h.lane_of_held htags hx hheld
  · exact hlane

theorem Change.lanesLawful (h : Change True s t) (htags : s.TagsDistinct) (hs : s.LanesLawful) : t.LanesLawful := by
  cases h with
  | readied => exact hs.readinessAll
  | announced p a k _ _ => exact hs.announce a k
  | aborted e w he _ => exact hs.leave htags (he trivial) (by simp) (by simp)
  | granted e k l r clips he hready hidle _ => exact hs.grant htags he hready hidle rfl rfl
  | waits e l limit he _ hheld hqc => exact hs.wait htags he limit hheld hqc hheld rfl
  | merged e x l y d hx hsame hlane hheld =>
    refine hs.leave htags hx ?_ ?_
    · rw [State.mergeSweep_lanes, hlane, hs.lane_of_merged htags hx hheld]
    · rw [State.mergeSweep_sweeps, hsame.tag]
  | stored e r he hplace hverdict => exact hs.store htags he hplace hverdict
  | released r rest _ => exact hs.congr (by simp) (by simp)
  | closed vp k _ _ => exact hs.congr (by simp) (by simp)
  | engineReset => exact lanesLawful_of_reset (fun l => by simp [State.engineReset]) rfl
  | _ => exact hs.congr rfl rfl

theorem TableChange.lanesLawful (h : TableChange s t) (htags : s.TagsDistinct) (hs : s.LanesLawful) : t.LanesLawful := by
  cases h with
  | opened p k _ _ _ => exact hs.congr rfl rfl
  | discarded vp k _ =>
    obtain ⟨-, hcase⟩ | ⟨-, -, hcase⟩ | ⟨-, -, hcase⟩ | ⟨-, hcase⟩ := s.discardStack_cases k
    · rw [hcase]
      have hdiscard : (s.discardSweeps k.settings.vp).LanesLawful :=
        discardSweeps_keeps (fun s e htags he hs => hs.leave htags he (by simp) (by simp)) _ htags hs
      exact hdiscard.congr rfl rfl
    · rw [hcase]
      exact hs.congr (by simp) (by simp)
    · rw [hcase]
      exact hs.congr rfl rfl
    · rw [hcase]
      exact hs.congr (by simp) (by simp)
  | finalized vp k _ _ => exact hs.congr (by simp [State.finalize]) (by simp [State.finalize])

/-- Settles O13: an entry takes a lane that holds nothing, keeps it, and frees it as it leaves. -/
theorem everyStepKeepsTheLaneLaw : Obligations.EveryStepKeepsTheLaneLaw := by
  unfold Obligations.EveryStepKeepsTheLaneLaw
  intro s t htags hs hstep
  exact (step_keeps (D := True) (L := fun s => s.TagsDistinct ∧ s.LanesLawful)
    (fun s straps => ⟨powerOn_tagsDistinct s straps,
      lanesLawful_of_reset (fun l => by simp [State.powerOn, State.reset]) rfl⟩)
    (fun s _ => ⟨fullReset_tagsDistinct s, lanesLawful_of_reset (fun l => by simp [State.fullReset, State.reset]) rfl⟩)
    (fun _ _ h hs => ⟨h.tagsDistinct hs.1, h.lanesLawful hs.1 hs.2⟩)
    (fun _ _ h hs => ⟨h.tagsDistinct hs.1, h.lanesLawful hs.1 hs.2⟩) (fun _ => htags.tags) ⟨htags, hs⟩ hstep).2

end

end Sys2Proof.Machine
end

section
/-! The output law is kept by every step (R145, R149, R150). -/

namespace Sys2Proof.Machine

/-! ### Stacks of distinct VP tags -/

section
variable {l : List Stack} {k x : Stack}

theorem eq_of_vp_eq (h : (l.map (·.settings.vp)).Nodup) (hk : k ∈ l) (hx : x ∈ l) (hvp : x.settings.vp = k.settings.vp) :
    x = k :=
  List.inj_on_of_nodup_map h hx hk hvp

/-- The stacks of a table of which one was changed. -/
theorem mem_map_vp (h : (l.map (·.settings.vp)).Nodup) (hk : k ∈ l) (f : Stack → Stack) :
    x ∈ l.map (fun y => if y.settings.vp = k.settings.vp then f y else y) ↔
      x = f k ∨ (x ∈ l ∧ x.settings.vp ≠ k.settings.vp) := by
  rw [List.mem_map]
  constructor
  · rintro ⟨y, hy, rfl⟩
    split
    · rename_i hvp
      rw [eq_of_vp_eq h hk hy hvp]
      exact .inl rfl
    · exact .inr ⟨hy, by assumption⟩
  · rintro (rfl | ⟨hx, hne⟩)
    · exact ⟨k, hk, if_pos rfl⟩
    · exact ⟨x, hx, if_neg hne⟩

theorem State.TagsDistinct.findStack {s : State} (h : s.TagsDistinct) {k : Stack} (hk : k ∈ s.stackTable) :
    s.findStack k.settings.vp = some k := by
  cases hfound : s.findStack k.settings.vp with
  | none => simpa using List.find?_eq_none.mp hfound k hk
  | some x =>
    obtain ⟨hx, hvp⟩ := State.findStack_eq_some hfound
    rw [eq_of_vp_eq h.vps hk hx hvp]

end

/-! ### The completion test and the routing of an abort, as changes of one stack -/

/-- A stack complete with a channel list, in the state its space request gives it (R136, R148, R149). -/
def Stack.completed (k : Stack) (channels : List ListedChannel) (state : StackState) : Stack :=
  { k with notShot := some k.notShotCount, channelList := channels, state := state }

theorem Stack.completed_recordSize (k : Stack) (channels : List ListedChannel) (state : StackState) :
    (k.completed channels state).recordSize = stackRecordSize channels.length k.settings.listen := rfl

theorem updStack_stackTable (s : State) (vp : Nat) (f : Stack → Stack) :
    (s.updStack vp f).stackTable = s.stackTable.map fun k => if k.settings.vp = vp then f k else k := rfl

theorem grantSpace_stackTable (s : State) (vp n : Nat) : (s.grantSpace vp n).stackTable =
    s.stackTable.map fun k => if k.settings.vp = vp then { k with state := .finalizing } else k := rfl

theorem holdStack_stackTable (s : State) (vp n : Nat) : (s.holdStack vp n).stackTable =
    s.stackTable.map fun k => if k.settings.vp = vp then { k with state := .held } else k := by
  rw [State.holdStack, State.post_stackTable]
  rfl

/-- Two changes of the stack with a VP tag are one. -/
theorem map_map_vp (l : List Stack) (vp : Nat) (f g : Stack → Stack) (hf : ∀ k, (f k).settings = k.settings) :
    (l.map fun k => if k.settings.vp = vp then f k else k).map (fun k => if k.settings.vp = vp then g k else k) =
      l.map fun k => if k.settings.vp = vp then g (f k) else k := by
  rw [List.map_map]
  refine List.map_congr_left fun k _ => ?_
  by_cases hk : k.settings.vp = vp
  · simp [hk, hf]
  · simp [hk]

/-- Everything the completion test can do (R135, R149). -/
theorem State.completionTest_cases (s : State) (vp : Nat) :
    ((∀ k, s.findStack vp = some k → s.complete k = false) ∧ s.completionTest vp = s) ∨
      ∃ k, s.findStack vp = some k ∧ s.complete k = true ∧
      ((s.oq.heldOrder = [] ∧ stackRecordSize s.listedChannels.length k.settings.listen ≤ s.oq.free ∧
        (s.completionTest vp).oq = { s.oq with
          reservations := s.oq.reservations ++
            [{ vp := vp, bytes := stackRecordSize s.listedChannels.length k.settings.listen }] } ∧
        (s.completionTest vp).stackTable = s.stackTable.map fun x =>
          if x.settings.vp = vp then x.completed s.listedChannels .finalizing else x) ∨
      ((s.oq.heldOrder = [] → s.oq.free < stackRecordSize s.listedChannels.length k.settings.listen) ∧
        (s.completionTest vp).oq = { s.oq with heldOrder := s.oq.heldOrder ++ [vp] } ∧
        (s.completionTest vp).stackTable = s.stackTable.map fun x =>
          if x.settings.vp = vp then x.completed s.listedChannels .held else x)) := by
  unfold State.completionTest
  split
  · rename_i hnone
    exact .inl ⟨fun k hk => by simp [hnone] at hk, rfl⟩
  · rename_i k hk
    split
    · rename_i hcomplete
      refine .inr ⟨k, hk, hcomplete, ?_⟩
      unfold State.requestSpace
      split
      · rename_i hfits
        obtain ⟨hheld, hfits⟩ := Bool.and_eq_true_iff.mp hfits
        refine .inl ⟨List.isEmpty_iff.mp hheld, of_decide_eq_true hfits, rfl, ?_⟩
        rw [grantSpace_stackTable, updStack_stackTable, map_map_vp]
        · simp only [Stack.completed]
        · exact fun _ => rfl
      · rename_i hfits
        refine .inr ⟨fun hheld => not_le.mp fun hle => hfits ?_, ?_, ?_⟩
        · exact Bool.and_eq_true_iff.mpr ⟨List.isEmpty_iff.mpr hheld, decide_eq_true hle⟩
        · rw [State.holdStack, State.post_oq]
          rfl
        · rw [holdStack_stackTable, updStack_stackTable, map_map_vp]
          · simp only [Stack.completed]
          · exact fun _ => rfl
    · rename_i hcomplete
      exact .inl ⟨fun x hx => by rw [hk] at hx; cases hx; simpa using hcomplete, rfl⟩

/-- What the routing of an abort makes of a stack (R113, R114, R131): the map entry leaves ANNOUNCED, counted where it is
ABANDONED. -/
structure Stack.Routed (k' k : Stack) (n : Nat) : Prop where
  settings : k'.settings = k.settings
  state : k'.state = k.state
  channels : k'.channelList = k.channelList
  accs : k'.accs = k.accs
  merged : k'.merged = k.merged
  retries : k.retriesUsed ≤ k.settings.retryLimit → k'.retriesUsed ≤ k.settings.retryLimit
  map : ∃ m, (∀ t, m ≠ .announced t) ∧ m.isMerged = false ∧ k'.map = k.map.set (n - 1) m ∧
    k'.abandoned = k.abandoned + if m.isAbandoned then 1 else 0

theorem Stack.abandon_routed (k : Stack) (e : SweepEntry) (c : AbortCause) : (k.abandon e c).Routed k e.number :=
  ⟨rfl, rfl, rfl, rfl, rfl, id, .abandoned e.tag c, by simp, rfl, rfl, rfl⟩

theorem Stack.setMap_routed (k : Stack) (n : Nat) {m : MapEntry} (hannounced : ∀ t, m ≠ .announced t)
    (hmerged : m.isMerged = false) (habandoned : m.isAbandoned = false) : (k.setMap n m).Routed k n :=
  ⟨rfl, rfl, rfl, rfl, rfl, id, m, hannounced, hmerged, rfl, by simp [habandoned, Stack.setMap]⟩

section
variable {s : State}

/-- A table of which one stack, the one a sweep belongs to, was routed. -/
def State.RoutedTo (s t : State) (e : SweepEntry) : Prop :=
  ∃ f : Stack → Stack, (∀ k ∈ s.stackTable, k.settings.vp = e.vp → (f k).Routed k e.number) ∧
    t.stackTable = s.stackTable.map fun k => if k.settings.vp = e.vp then f k else k

theorem updStack_routedTo {e : SweepEntry} {f : Stack → Stack} (hf : ∀ k, (f k).Routed k e.number) :
    s.RoutedTo (s.updStack e.vp f) e :=
  ⟨f, fun k _ _ => hf k, rfl⟩

theorem resweep_routedTo (htags : s.TagsDistinct) (e : SweepEntry) (c : AbortCause) :
    s.RoutedTo (s.resweep e c) e := by
  unfold State.resweep
  split
  · rename_i hfound
    refine ⟨id, fun k hk hvp => ?_, by simp⟩
    rw [← hvp, htags.findStack hk] at hfound
    cases hfound
  · rename_i k hfound
    have hretry : ∀ x : Stack, (x.setMap e.number (.retry e.tag)).Routed x e.number := fun x =>
      x.setMap_routed e.number (by simp) rfl rfl
    split_ifs with hopen hroom
    · refine ⟨fun x => { x.setMap e.number (.retry e.tag) with retriesUsed := x.retriesUsed + 1 }, fun x hx hvp => ?_,
        State.post_stackTable _ _⟩
      have hx' := htags.findStack hx
      rw [hvp, hfound] at hx'
      obtain rfl := Option.some.inj hx'
      obtain ⟨settings, state, channels, accs, merged, -, map⟩ := hretry k
      exact ⟨settings, state, channels, accs, merged, fun _ => hroom, map⟩
    · exact updStack_routedTo fun x => x.abandon_routed e c
    · exact updStack_routedTo hretry

/-- Everything the routing of an abort does to the stack table (R113, R131). -/
theorem route_routedTo (htags : s.TagsDistinct) (e : SweepEntry) {w : AbortReason} (hw : w ≠ .discarded) :
    s.RoutedTo (s.route e w) e := by
  unfold State.route
  split
  · exact updStack_routedTo fun x => x.setMap_routed e.number (by simp) rfl rfl
  · exact updStack_routedTo fun x => x.abandon_routed e _
  · exact updStack_routedTo fun x => x.abandon_routed e _
  · split
    · exact resweep_routedTo htags e _
    · exact updStack_routedTo fun x => x.abandon_routed e _
  · exact resweep_routedTo htags e _
  · exact updStack_routedTo fun x => x.abandon_routed e _
  · exact absurd rfl hw

end

/-! ### The output law of a held order still to be served -/

/-- The output law but for the service of the held order, with the order as it is to be. -/
structure State.Unserved (s : State) (order : List Nat) : Prop where
  capacity : s.oq.used + s.oq.reserved ≤ Config.outputCapacity
  reserved : ∀ k ∈ s.stackTable, k.state = .finalizing →
    s.oq.reservations.filter (fun r => r.vp == k.settings.vp) = [{ vp := k.settings.vp, bytes := k.recordSize }]
  finalizing : ∀ r ∈ s.oq.reservations, ∃ k ∈ s.stackTable, k.settings.vp = r.vp ∧ k.state = .finalizing
  distinct : order.Nodup
  held : ∀ vp, vp ∈ order ↔ ∃ k ∈ s.stackTable, k.settings.vp = vp ∧ k.state = .held

/-- The first stack of a held order does not fit (R150). -/
def State.Served (s : State) (order : List Nat) : Prop :=
  ∀ vp rest, order = vp :: rest → ∃ k ∈ s.stackTable, k.settings.vp = vp ∧ s.oq.free < k.recordSize

/-- A stack in the same place, which claims the same space. -/
structure Stack.SamePlace (k' k : Stack) : Prop where
  vp : k'.settings.vp = k.settings.vp
  state : k'.state = k.state
  size : k'.recordSize = k.recordSize

section
variable {s t : State} {order : List Nat} {k : Stack}

theorem State.OutputLawful.unserved (h : s.OutputLawful) : s.Unserved s.oq.heldOrder :=
  ⟨h.capacity, h.reserved, h.finalizing, h.distinct, h.held⟩

theorem State.Unserved.lawful (h : s.Unserved s.oq.heldOrder) (hserved : s.Served s.oq.heldOrder) : s.OutputLawful :=
  ⟨h.capacity, h.reserved, h.finalizing, h.distinct, h.held, hserved⟩

/-- The output law reads of each stack its place and its size. -/
theorem State.Unserved.map (h : s.Unserved order) (hcapacity : t.oq.used + t.oq.reserved ≤ Config.outputCapacity)
    (hreservations : t.oq.reservations = s.oq.reservations) {f : Stack → Stack}
    (htable : t.stackTable = s.stackTable.map f) (hf : ∀ k ∈ s.stackTable, (f k).SamePlace k) : t.Unserved order := by
  refine ⟨hcapacity, ?_, ?_, h.distinct, ?_⟩
  · rw [htable, hreservations]
    intro k hk hstate
    obtain ⟨x, hx, rfl⟩ := List.mem_map.mp hk
    rw [(hf x hx).vp, (hf x hx).size]
    exact h.reserved x hx ((hf x hx).state ▸ hstate)
  · rw [htable, hreservations]
    intro r hr
    obtain ⟨k, hk, hvp, hstate⟩ := h.finalizing r hr
    exact ⟨f k, List.mem_map_of_mem hk, (hf k hk).vp.trans hvp, (hf k hk).state.trans hstate⟩
  · rw [htable]
    intro vp
    rw [h.held vp]
    constructor
    · rintro ⟨k, hk, hvp, hstate⟩
      exact ⟨f k, List.mem_map_of_mem hk, (hf k hk).vp.trans hvp, (hf k hk).state.trans hstate⟩
    · rintro ⟨k, hk, hvp, hstate⟩
      obtain ⟨x, hx, rfl⟩ := List.mem_map.mp hk
      exact ⟨x, hx, (hf x hx).vp.symm.trans hvp, (hf x hx).state.symm.trans hstate⟩

theorem State.OutputLawful.map (h : s.OutputLawful) (hoq : t.oq = s.oq) {f : Stack → Stack}
    (htable : t.stackTable = s.stackTable.map f) (hf : ∀ k ∈ s.stackTable, (f k).SamePlace k) : t.OutputLawful := by
  refine State.Unserved.lawful ?_ ?_
  · rw [hoq]
    exact h.unserved.map (by rw [hoq]; exact h.capacity) (by rw [hoq]) htable hf
  · rw [hoq]
    intro vp rest horder
    obtain ⟨k, hk, hvp, hfree⟩ := h.served vp rest horder
    rw [hoq, htable]
    exact ⟨f k, List.mem_map_of_mem hk, (hf k hk).vp.trans hvp, (hf k hk).size ▸ hfree⟩

theorem Stack.SamePlace.refl (k : Stack) : k.SamePlace k := ⟨rfl, rfl, rfl⟩

theorem State.OutputLawful.congr (h : s.OutputLawful) (hoq : t.oq = s.oq) (htable : t.stackTable = s.stackTable) :
    t.OutputLawful :=
  h.map hoq (f := id) (by simpa using htable) fun k _ => .refl k

theorem State.OutputLawful.updStack (h : s.OutputLawful) (vp : Nat) {f : Stack → Stack}
    (hf : ∀ k, (f k).SamePlace k) : (s.updStack vp f).OutputLawful := by
  refine h.map (t := s.updStack vp f) rfl (f := fun k => if k.settings.vp = vp then f k else k) rfl fun k _ => ?_
  split
  · exact hf k
  · exact .refl k

/-- No reservation is made for a stack out of FINALIZING. -/
theorem State.Unserved.no_reservation (h : s.Unserved order) (htags : s.TagsDistinct) (hk : k ∈ s.stackTable)
    (hstate : k.state ≠ .finalizing) : ∀ r ∈ s.oq.reservations, r.vp ≠ k.settings.vp := by
  intro r hr hvp
  obtain ⟨x, hx, hxvp, hxstate⟩ := h.finalizing r hr
  rw [eq_of_vp_eq htags.vps hk hx (hxvp.trans hvp)] at hxstate
  exact hstate hxstate

theorem State.Unserved.not_held (h : s.Unserved order) (htags : s.TagsDistinct) (hk : k ∈ s.stackTable)
    (hstate : k.state ≠ .held) : k.settings.vp ∉ order := by
  intro hmem
  obtain ⟨x, hx, hxvp, hxstate⟩ := (h.held _).mp hmem
  rw [eq_of_vp_eq htags.vps hk hx hxvp] at hxstate
  exact hstate hxstate

/-- Space granted to a stack out of FINALIZING (R149, R150). -/
theorem State.Unserved.grant (h : s.Unserved order) (htags : s.TagsDistinct) (hk : k ∈ s.stackTable)
    (hstate : k.state ≠ .finalizing) {f : Stack → Stack} (hvp : (f k).settings.vp = k.settings.vp)
    (hfinalizing : (f k).state = .finalizing) (hfits : (f k).recordSize ≤ s.oq.free) (hrecords : t.oq.records = s.oq.records)
    (hreservations : t.oq.reservations = s.oq.reservations ++ [{ vp := k.settings.vp, bytes := (f k).recordSize }])
    (htable : t.stackTable = s.stackTable.map fun x => if x.settings.vp = k.settings.vp then f x else x)
    {rest : List Nat} (hrest : rest.Nodup) (horder : ∀ vp, vp ∈ rest ↔ vp ∈ order ∧ vp ≠ k.settings.vp) :
    t.Unserved rest := by
  have hfresh := h.no_reservation htags hk hstate
  have hmem : ∀ x, x ∈ t.stackTable ↔ x = f k ∨ (x ∈ s.stackTable ∧ x.settings.vp ≠ k.settings.vp) := by
    rw [htable]
    exact fun x => mem_map_vp htags.vps hk f
  refine ⟨?_, ?_, ?_, hrest, ?_⟩
  · have hcapacity := h.capacity
    simp only [OutputQueue.free, OutputQueue.used, OutputQueue.reserved] at hfits hcapacity ⊢
    rw [hrecords, hreservations, List.map_append, List.sum_append, List.map_singleton, List.sum_singleton]
    dsimp only
    omega
  · intro x hx hxstate
    rw [hreservations, List.filter_append]
    obtain rfl | ⟨hx, hne⟩ := (hmem x).mp hx
    · rw [List.filter_eq_nil_iff.mpr fun r hr => by simpa [hvp] using hfresh r hr]
      simp [hvp]
    · rw [h.reserved x hx hxstate]
      simp [Ne.symm hne]
  · intro r hr
    rw [hreservations] at hr
    obtain hr | hr := List.mem_append.mp hr
    · obtain ⟨x, hx, hxvp, hxstate⟩ := h.finalizing r hr
      exact ⟨x, (hmem x).mpr (.inr ⟨hx, hxvp ▸ hfresh r hr⟩), hxvp, hxstate⟩
    · rw [List.mem_singleton.mp hr]
      exact ⟨f k, (hmem _).mpr (.inl rfl), hvp, hfinalizing⟩
  · intro vp
    rw [horder, h.held vp]
    constructor
    · rintro ⟨⟨x, hx, rfl, hxstate⟩, hne⟩
      exact ⟨x, (hmem x).mpr (.inr ⟨hx, hne⟩), rfl, hxstate⟩
    · rintro ⟨x, hx, rfl, hxstate⟩
      obtain rfl | ⟨hx, hne⟩ := (hmem x).mp hx
      · simp [hfinalizing] at hxstate
      · exact ⟨⟨x, hx, rfl, hxstate⟩, hne⟩

/-- A stack out of FINALIZING and HELD is HELD behind the others (R149). -/
theorem State.Unserved.hold (h : s.Unserved order) (htags : s.TagsDistinct) (hk : k ∈ s.stackTable)
    (hfinalizing : k.state ≠ .finalizing) (hheld : k.state ≠ .held) {f : Stack → Stack}
    (hvp : (f k).settings.vp = k.settings.vp) (hstate : (f k).state = .held) (hrecords : t.oq.records = s.oq.records)
    (hreservations : t.oq.reservations = s.oq.reservations)
    (htable : t.stackTable = s.stackTable.map fun x => if x.settings.vp = k.settings.vp then f x else x) :
    t.Unserved (order ++ [k.settings.vp]) := by
  have hmem : ∀ x, x ∈ t.stackTable ↔ x = f k ∨ (x ∈ s.stackTable ∧ x.settings.vp ≠ k.settings.vp) := by
    rw [htable]
    exact fun x => mem_map_vp htags.vps hk f
  refine ⟨?_, ?_, ?_, ?_, ?_⟩
  · simp only [OutputQueue.used, OutputQueue.reserved]
    rw [hrecords, hreservations]
    exact h.capacity
  · intro x hx hxstate
    rw [hreservations]
    obtain rfl | ⟨hx, -⟩ := (hmem x).mp hx
    · simp [hstate] at hxstate
    · exact h.reserved x hx hxstate
  · intro r hr
    rw [hreservations] at hr
    obtain ⟨x, hx, hxvp, hxstate⟩ := h.finalizing r hr
    exact ⟨x, (hmem x).mpr (.inr ⟨hx, hxvp ▸ h.no_reservation htags hk hfinalizing r hr⟩), hxvp, hxstate⟩
  · refine List.Nodup.append h.distinct (List.nodup_singleton _) ?_
    simpa using h.not_held htags hk hheld
  · intro vp
    rw [List.mem_append, List.mem_singleton, h.held vp]
    constructor
    · rintro (⟨x, hx, rfl, hxstate⟩ | rfl)
      · have hne : x.settings.vp ≠ k.settings.vp := by
          intro heq
          rw [eq_of_vp_eq htags.vps hk hx heq] at hxstate
          exact hheld hxstate
        exact ⟨x, (hmem x).mpr (.inr ⟨hx, hne⟩), rfl, hxstate⟩
      · exact ⟨f k, (hmem _).mpr (.inl rfl), hvp, hstate⟩
    · rintro ⟨x, hx, rfl, hxstate⟩
      obtain rfl | ⟨hx, -⟩ := (hmem x).mp hx
      · exact .inr hvp
      · exact .inl ⟨x, hx, rfl, hxstate⟩

/-- The service of a held order gives the law of it (R150). -/
theorem State.Unserved.serveHeld (h : s.Unserved order) (htags : s.TagsDistinct) :
    (s.serveHeld order).OutputLawful := by
  induction order generalizing s with
  | nil =>
    have h' : State.Unserved { s with oq := { s.oq with heldOrder := [] } } [] :=
      ⟨h.capacity, h.reserved, h.finalizing, h.distinct, h.held⟩
    exact h'.lawful fun vp rest horder => by cases horder
  | cons vp rest ih =>
    obtain ⟨k, hk, rfl, hstate⟩ := (h.held vp).mp (List.mem_cons_self)
    unfold State.serveHeld
    rw [htags.findStack hk]
    dsimp only
    split
    · rename_i hfits
      refine ih ?_ ⟨htags.tags, ?_⟩
      · have hnodup := List.nodup_cons.mp h.distinct
        refine h.grant htags hk (by simp [hstate]) (t := s.grantSpace k.settings.vp k.recordSize)
          (f := fun x => { x with state := .finalizing }) rfl rfl hfits rfl rfl rfl
          hnodup.2 fun vp => ?_
        rw [List.mem_cons]
        constructor
        · exact fun hmem => ⟨.inr hmem, fun heq => hnodup.1 (heq ▸ hmem)⟩
        · rintro ⟨rfl | hmem, hne⟩
          · exact absurd rfl hne
          · exact hmem
      · rw [← tableSettings_vps]
        have hsettings : (s.grantSpace k.settings.vp k.recordSize).tableSettings = s.tableSettings :=
          updStack_tableSettings s k.settings.vp (fun x => { x with state := .finalizing }) fun _ => rfl
        rw [hsettings, tableSettings_vps]
        exact htags.vps
    · rename_i hfits
      have h' : State.Unserved { s with oq := { s.oq with heldOrder := k.settings.vp :: rest } } (k.settings.vp :: rest) :=
        ⟨h.capacity, h.reserved, h.finalizing, h.distinct, h.held⟩
      refine h'.lawful fun vp rest' horder => ?_
      cases horder
      exact ⟨k, hk, rfl, not_le.mp hfits⟩

/-- The completion test keeps the law (R149). -/
theorem State.OutputLawful.completionTest (h : s.OutputLawful) (htags : s.TagsDistinct) (vp : Nat) :
    (s.completionTest vp).OutputLawful := by
  obtain ⟨-, hsame⟩ | ⟨k, hfound, hcomplete, hcase⟩ := s.completionTest_cases vp
  · rw [hsame]
    exact h
  · obtain ⟨hk, rfl⟩ := State.findStack_eq_some hfound
    have hstate : k.state = .opened ∨ k.state = .closing := by
      cases hks : k.state <;> simp [State.complete, hks] at hcomplete ⊢
    have hfinalizing : k.state ≠ .finalizing := by
      obtain hs | hs := hstate <;> simp [hs]
    have hnotheld : k.state ≠ .held := by
      obtain hs | hs := hstate <;> simp [hs]
    have hfresh := h.unserved.not_held htags hk hnotheld
    obtain ⟨hheld, hfits, hoq, htable⟩ | ⟨hfull, hoq, htable⟩ := hcase
    · have hnone : (s.completionTest k.settings.vp).oq.heldOrder = [] := by
        rw [hoq]
        exact hheld
      refine State.Unserved.lawful ?_ (fun vp rest horder => by simp [hnone] at horder)
      rw [hnone]
      refine h.unserved.grant htags hk hfinalizing (f := fun x => x.completed s.listedChannels .finalizing) rfl rfl
        (by rw [Stack.completed_recordSize]; exact hfits) (by rw [hoq]) (by rw [hoq, Stack.completed_recordSize]) htable List.nodup_nil fun vp => ?_
      simp [hheld]
    · have horder : (s.completionTest k.settings.vp).oq.heldOrder = s.oq.heldOrder ++ [k.settings.vp] := by rw [hoq]
      refine State.Unserved.lawful ?_ ?_
      · rw [horder]
        exact h.unserved.hold htags hk hfinalizing hnotheld (f := fun x => x.completed s.listedChannels .held) rfl rfl
          (by rw [hoq]) (by rw [hoq]) htable
      · rw [horder]
        have hfree : (s.completionTest k.settings.vp).oq.free = s.oq.free := by rw [hoq]; rfl
        have hmem : ∀ x, x ∈ (s.completionTest k.settings.vp).stackTable ↔
            x = k.completed s.listedChannels .held ∨ (x ∈ s.stackTable ∧ x.settings.vp ≠ k.settings.vp) := by
          rw [htable]
          exact fun x => mem_map_vp htags.vps hk _
        intro vp rest hcons
        rw [hfree]
        cases hold : s.oq.heldOrder with
        | nil =>
          rw [hold] at hcons
          cases hcons
          refine ⟨_, (hmem _).mpr (.inl rfl), rfl, ?_⟩
          rw [Stack.completed_recordSize]
          exact hfull hold
        | cons first others =>
          rw [hold] at hcons
          cases hcons
          obtain ⟨x, hx, rfl, hxfree⟩ := h.served vp others hold
          have hne : x.settings.vp ≠ k.settings.vp := fun heq => hfresh (by rw [hold, ← heq]; exact List.mem_cons_self)
          exact ⟨x, (hmem x).mpr (.inr ⟨hx, hne⟩), rfl, hxfree⟩

/-- The output law bears an append that fits while no stack is held (R145, R157). -/
theorem State.OutputLawful.appended (h : s.OutputLawful) {kind : RecordKind} {size : Nat} {content : Nat → List Byte}
    (hheld : s.oq.heldOrder = []) (hfits : size ≤ s.oq.free) (hoq : t.oq = s.oq.appended kind size content)
    (htable : t.stackTable = s.stackTable) : t.OutputLawful := by
  have hnone : t.oq.heldOrder = [] := by
    rw [hoq]
    exact hheld
  refine State.Unserved.lawful ?_ (fun vp rest horder => by simp [hnone] at horder)
  rw [hnone]
  have h' := h.unserved
  rw [hheld] at h'
  refine h'.map ?_ (by rw [hoq]; rfl) (f := id) (by simpa using htable) fun k _ => .refl k
  have hcapacity := h.capacity
  rw [hoq]
  simp only [OutputQueue.appended, OutputQueue.free, OutputQueue.used, OutputQueue.reserved, List.map_append, List.sum_append,
    List.map_singleton, List.sum_singleton] at hfits hcapacity ⊢
  omega

theorem State.OutputLawful.offerSweep (h : s.OutputLawful) (e : SweepEntry) (l : Lane) (d : Disposition)
    (q : Option QcRecord) : (s.offerSweep e l d q).OutputLawful := by
  obtain hsame | ⟨k, -, hheld, hfits, hoq⟩ := offerSweep_oq s e l d q
  · exact h.congr hsame (by simp)
  · exact h.appended hheld hfits hoq (by simp)

theorem State.OutputLawful.offerAborted (h : s.OutputLawful) (e : SweepEntry) (w : AbortReason) :
    (s.offerAborted e w).OutputLawful := by
  obtain hsame | ⟨l, d, q, -, -, hoffer⟩ := offerAborted_cases s e w
  · rw [hsame]
    exact h
  · rw [hoffer]
    exact h.offerSweep e _ d q

theorem Stack.Routed.samePlace {k' k : Stack} {n : Nat} (h : k'.Routed k n) : k'.SamePlace k :=
  ⟨by rw [h.settings], h.state, by rw [Stack.recordSize, Stack.recordSize, h.channels, h.settings]⟩

theorem State.OutputLawful.routed (h : s.OutputLawful) {e : SweepEntry} (hoq : t.oq = s.oq) (hrouted : s.RoutedTo t e) :
    t.OutputLawful := by
  obtain ⟨f, hf, htable⟩ := hrouted
  refine h.map hoq htable fun k hk => ?_
  split
  · rename_i hvp
    exact (hf k hk hvp).samePlace
  · exact .refl k

theorem State.TagsDistinct.of_sublist (h : s.TagsDistinct) (hsweeps : t.sweeps.Sublist s.sweeps)
    (htable : t.tableSettings = s.tableSettings) : t.TagsDistinct :=
  ⟨h.tags.sublist (hsweeps.map _), by rw [← tableSettings_vps, htable, tableSettings_vps]; exact h.vps⟩

theorem State.OutputLawful.abortSweep (h : s.OutputLawful) (htags : s.TagsDistinct) (e : SweepEntry) (w : AbortReason) :
    (s.abortSweep e w).OutputLawful := by
  have hgone : (((s.offerAborted e w).withoutSweep e).post (.swAbort e.tag e.vp e.number w.cause)).OutputLawful :=
    (h.offerAborted e w).congr (by simp [State.withoutSweep]) (by simp [State.withoutSweep])
  have hgonetags : (((s.offerAborted e w).withoutSweep e).post (.swAbort e.tag e.vp e.number w.cause)).TagsDistinct :=
    htags.of_sublist (by simp [State.withoutSweep])
      (tableSettings_congr (by simp [State.withoutSweep]))
  by_cases hw : w = .discarded
  · unfold State.abortSweep
    rw [State.leave_abort, if_pos hw]
    exact hgone
  · rw [State.abortSweep_eq s e hw]
    exact (hgone.routed (by simp) (route_routedTo hgonetags e hw)).completionTest
      (hgonetags.of_sublist (by simp) (route_tableSettings _ e w)) e.vp

theorem Stack.mergeSweep_samePlace (k : Stack) (e : SweepEntry) (ts : List TraceResult) : (k.mergeSweep e ts).SamePlace k :=
  ⟨rfl, rfl, rfl⟩

theorem State.OutputLawful.mergeSweep (h : s.OutputLawful) (htags : s.TagsDistinct) (e : SweepEntry) (l : Lane)
    (d : Disposition) : (s.mergeSweep e l d).OutputLawful := by
  have hmerged : (s.updStack e.vp fun k => k.mergeSweep e l.result).OutputLawful :=
    h.updStack e.vp (f := fun k => k.mergeSweep e l.result) fun k => k.mergeSweep_samePlace e l.result
  rw [State.mergeSweep_eq]
  refine State.OutputLawful.completionTest ?_ ?_ e.vp
  · exact (hmerged.offerSweep e l d e.qc).congr (by simp [State.withoutSweep]) (by simp [State.withoutSweep])
  · refine htags.of_sublist ?_ ((tableSettings_congr ?_).trans
      (updStack_tableSettings s e.vp (fun k => k.mergeSweep e l.result) fun _ => rfl))
    · simp [State.withoutSweep]
    · simp [State.withoutSweep]

/-! ### Stacks that leave the table -/

theorem filter_vp_eq_self {l : List Reservation} {vp : Nat} (h : ∀ r ∈ l, r.vp ≠ vp) : l.filter (fun r => r.vp != vp) = l :=
  List.filter_eq_self.mpr fun r hr => by simpa using h r hr

theorem sum_filter_vp (l : List Reservation) (vp : Nat) :
    (l.map (·.bytes)).sum =
      ((l.filter fun r => r.vp == vp).map (·.bytes)).sum + ((l.filter fun r => r.vp != vp).map (·.bytes)).sum := by
  induction l with
  | nil => rfl
  | cons r l ih =>
    by_cases hr : r.vp = vp
    · simp [hr, ih, Nat.add_assoc]
    · simp [hr, ih, Nat.add_left_comm]

/-- A stack leaves the table with its reservation and its held place (R140, R151, R155). -/
theorem State.Unserved.drop (h : s.Unserved order) (vp : Nat)
    (hcapacity : t.oq.used + t.oq.reserved ≤ Config.outputCapacity)
    (hreservations : t.oq.reservations = s.oq.reservations.filter fun r => r.vp != vp)
    (htable : t.stackTable = s.stackTable.filter fun k => k.settings.vp != vp) :
    t.Unserved (order.filter fun v => v != vp) := by
  have hmem : ∀ x, x ∈ t.stackTable ↔ x ∈ s.stackTable ∧ x.settings.vp ≠ vp := by simp [htable]
  refine ⟨hcapacity, ?_, ?_, h.distinct.filter _, ?_⟩
  · intro k hk hstate
    obtain ⟨hk, hne⟩ := (hmem k).mp hk
    rw [hreservations, List.filter_filter, ← h.reserved k hk hstate]
    refine List.filter_congr fun r _ => ?_
    by_cases hr : r.vp = k.settings.vp
    · simp [hr, hne]
    · simp [hr]
  · intro r hr
    rw [hreservations, List.mem_filter] at hr
    obtain ⟨k, hk, hvp, hstate⟩ := h.finalizing r hr.1
    exact ⟨k, (hmem k).mpr ⟨hk, by simpa [hvp] using hr.2⟩, hvp, hstate⟩
  · intro v
    rw [List.mem_filter, h.held v]
    constructor
    · rintro ⟨⟨k, hk, rfl, hstate⟩, hne⟩
      exact ⟨k, (hmem k).mpr ⟨hk, by simpa using hne⟩, rfl, hstate⟩
    · rintro ⟨k, hk, rfl, hstate⟩
      obtain ⟨hk, hne⟩ := (hmem k).mp hk
      exact ⟨⟨k, hk, rfl, hstate⟩, by simpa using hne⟩

theorem filter_ne_eq_self {l : List Nat} {v : Nat} (h : v ∉ l) : l.filter (fun x => x != v) = l :=
  List.filter_eq_self.mpr fun x hx => by simpa using ne_of_mem_of_not_mem hx h

/-- The first stack of the order stays as long as another leaves and no space comes free. -/
theorem State.OutputLawful.served_drop (h : s.OutputLawful) {vp : Nat} (hhead : s.oq.heldOrder.head? ≠ some vp)
    (hfree : t.oq.free = s.oq.free) (htable : t.stackTable = s.stackTable.filter fun k => k.settings.vp != vp) :
    t.Served (s.oq.heldOrder.filter fun v => v != vp) := by
  intro first rest horder
  cases hold : s.oq.heldOrder with
  | nil => simp [hold] at horder
  | cons v others =>
    have hne : v ≠ vp := by simpa [hold] using hhead
    rw [hold, List.filter_cons_of_pos (by simpa using hne)] at horder
    obtain ⟨rfl, -⟩ := List.cons.inj horder
    obtain ⟨k, hk, hvp, hsize⟩ := h.served v others hold
    refine ⟨k, ?_, hvp, by rw [hfree]; exact hsize⟩
    rw [htable, List.mem_filter]
    exact ⟨hk, by simpa [hvp] using hne⟩

theorem dropStack_tagsDistinct (htags : s.TagsDistinct) (vp : Nat) : (s.dropStack vp).TagsDistinct :=
  ⟨htags.tags, htags.vps.sublist (List.filter_sublist.map _)⟩

/-- A discarded sweep leaves, and is neither offered nor routed (R79). -/
theorem abortSweep_discarded (s : State) (e : SweepEntry) :
    s.abortSweep e .discarded = (s.withoutSweep e).post (.swAbort e.tag e.vp e.number .discarded) := by
  unfold State.abortSweep
  rw [State.leave_abort, if_pos rfl]
  rfl

/-- What no discard of a sweep changes, the discard of a stack's sweeps does not change. -/
theorem discardSweeps_frame {α : Type} (g : State → α) (hg : ∀ s e, g (State.abortSweep s e .discarded) = g s) (s : State)
    (vp : Nat) : g (s.discardSweeps vp) = g s := by
  unfold State.discardSweeps
  generalize s.sweeps.filter _ = l
  induction l generalizing s with
  | nil => rfl
  | cons e l ih => exact (ih _).trans (hg s e)

@[simp] theorem State.discardSweeps_oq (s : State) (vp : Nat) : (s.discardSweeps vp).oq = s.oq :=
  discardSweeps_frame (·.oq) (fun s e => by simp [abortSweep_discarded, State.withoutSweep]) s vp

@[simp] theorem State.discardSweeps_stackTable (s : State) (vp : Nat) : (s.discardSweeps vp).stackTable = s.stackTable :=
  discardSweeps_frame (·.stackTable) (fun s e => by simp [abortSweep_discarded, State.withoutSweep]) s vp

/-- A stack that holds neither a reservation nor the first held place leaves the table alone. -/
theorem State.OutputLawful.drop (h : s.OutputLawful) (htags : s.TagsDistinct) (hk : k ∈ s.stackTable)
    (hstate : k.state ≠ .finalizing) (hhead : s.oq.heldOrder.head? ≠ some k.settings.vp)
    (horder : t.oq.heldOrder = s.oq.heldOrder.filter fun v => v != k.settings.vp) (hrecords : t.oq.records = s.oq.records)
    (hreservations : t.oq.reservations = s.oq.reservations)
    (htable : t.stackTable = s.stackTable.filter fun x => x.settings.vp != k.settings.vp) : t.OutputLawful := by
  have hused : t.oq.used = s.oq.used := by rw [OutputQueue.used, hrecords, OutputQueue.used]
  have hreserved : t.oq.reserved = s.oq.reserved := by rw [OutputQueue.reserved, hreservations, OutputQueue.reserved]
  refine State.Unserved.lawful ?_ ?_
  · rw [horder]
    refine h.unserved.drop k.settings.vp (by rw [hused, hreserved]; exact h.capacity) ?_ htable
    rw [hreservations, filter_vp_eq_self (h.unserved.no_reservation htags hk hstate)]
  · rw [horder]
    exact h.served_drop hhead (by rw [OutputQueue.free, OutputQueue.free, hused, hreserved]) htable

/-- What a stack in FINALIZING has reserved is the size of its record. -/
theorem State.Unserved.reserved_split (h : s.Unserved order) (hk : k ∈ s.stackTable) (hstate : k.state = .finalizing) :
    s.oq.reserved = k.recordSize + (s.unreserve k.settings.vp).oq.reserved := by
  rw [OutputQueue.reserved, sum_filter_vp _ k.settings.vp, h.reserved k hk hstate]
  simp [State.unreserve, OutputQueue.reserved]

theorem State.OutputLawful.discardStack (h : s.OutputLawful) (htags : s.TagsDistinct) (hk : k ∈ s.stackTable) :
    (s.discardStack k).OutputLawful := by
  obtain ⟨hstate, hcase⟩ | ⟨hstate, -, hcase⟩ | ⟨hstate, hhead, hcase⟩ | ⟨hstate, hcase⟩ := s.discardStack_cases k
  · have horder : k.settings.vp ∉ s.oq.heldOrder :=
      h.unserved.not_held htags hk (by obtain hs | hs := hstate <;> simp [hs])
    rw [hcase]
    refine h.drop htags hk (by obtain hs | hs := hstate <;> simp [hs])
      (fun hhead => horder (List.mem_of_mem_head? hhead)) ?_ (by simp) (by simp) (by simp)
    simp [filter_ne_eq_self horder]
  · rw [hcase]
    refine State.Unserved.serveHeld ?_ (dropStack_tagsDistinct (s := s.leaveHeld k.settings.vp) ⟨htags.tags, htags.vps⟩ _)
    refine h.unserved.drop k.settings.vp h.capacity ?_ rfl
    exact (filter_vp_eq_self (h.unserved.no_reservation htags hk (by simp [hstate]))).symm
  · rw [hcase]
    exact h.drop htags hk (by simp [hstate]) hhead rfl rfl rfl rfl
  · have horder : k.settings.vp ∉ s.oq.heldOrder := h.unserved.not_held htags hk (by simp [hstate])
    rw [hcase]
    refine State.Unserved.serveHeld ?_ (dropStack_tagsDistinct (s := s.unreserve k.settings.vp) ⟨htags.tags, htags.vps⟩ _)
    have hdrop := h.unserved.drop (t := (s.unreserve k.settings.vp).dropStack k.settings.vp) k.settings.vp ?_ rfl rfl
    · rw [filter_ne_eq_self horder] at hdrop
      exact hdrop
    · have hsplit := h.unserved.reserved_split hk hstate
      have hcapacity := h.capacity
      show s.oq.used + (s.unreserve k.settings.vp).oq.reserved ≤ _
      omega

theorem State.finalize_oq (s : State) (k : Stack) : (s.finalize k).oq =
    (s.unreserve k.settings.vp).oq.appended .stack k.recordSize fun n => stackContent k n s.interval s.channels := by
  unfold State.finalize
  dsimp only
  rw [State.post_oq, State.dropStack_oq, append_oq]

/-- A finished stack's record takes the space its reservation gives back (R155). -/
theorem State.OutputLawful.finalize (h : s.OutputLawful) (htags : s.TagsDistinct) (hk : k ∈ s.stackTable)
    (hstate : k.state = .finalizing) : (s.finalize k).OutputLawful := by
  have hsplit := h.unserved.reserved_split hk hstate
  have hnot : k.settings.vp ∉ s.oq.heldOrder := h.unserved.not_held htags hk (by simp [hstate])
  have horder : (s.finalize k).oq.heldOrder = s.oq.heldOrder.filter fun v => v != k.settings.vp := by
    rw [State.finalize_oq, filter_ne_eq_self hnot]
    rfl
  have hused : (s.finalize k).oq.used = s.oq.used + k.recordSize := by
    rw [State.finalize_oq]
    simp [OutputQueue.appended, OutputQueue.used, State.unreserve]
  have hreserved : (s.finalize k).oq.reserved = (s.unreserve k.settings.vp).oq.reserved := by
    rw [State.finalize_oq]
    rfl
  have hcapacity := h.capacity
  refine State.Unserved.lawful ?_ ?_
  · rw [horder]
    refine h.unserved.drop k.settings.vp (by rw [hused, hreserved]; omega) ?_ (finalize_stackTable s k)
    rw [State.finalize_oq]
    rfl
  · rw [horder]
    refine h.served_drop (fun hhead => hnot (List.mem_of_mem_head? hhead)) ?_ (finalize_stackTable s k)
    rw [OutputQueue.free, OutputQueue.free, hused, hreserved]
    omega

/-- A released record's space serves the held order (R150, R161). -/
theorem State.OutputLawful.released (h : s.OutputLawful) (htags : s.TagsDistinct) {r : OutRecord} {rest : List OutRecord}
    (hrecords : s.oq.records = r :: rest) :
    (State.serve { s with oq := { s.oq with records := rest, readPosition := 0 } }).OutputLawful := by
  refine State.Unserved.serveHeld ⟨?_, h.reserved, h.finalizing, h.distinct, h.held⟩ ⟨htags.tags, htags.vps⟩
  have hcapacity := h.capacity
  rw [OutputQueue.used, hrecords, List.map_cons, List.sum_cons] at hcapacity
  show (rest.map (·.size)).sum + s.oq.reserved ≤ _
  omega

/-- A new stack is OPEN: it neither holds nor waits for space (R122). -/
theorem State.OutputLawful.opened (h : s.OutputLawful) (k : StackSettings) :
    State.OutputLawful { s with stackTable := s.stackTable ++ [Stack.new k] } := by
  have hmem : ∀ x, x ∈ s.stackTable ++ [Stack.new k] ↔ x ∈ s.stackTable ∨ x = Stack.new k := by simp
  have hkeep : ∀ x ∈ s.stackTable, x ∈ s.stackTable ++ [Stack.new k] := fun x hx => (hmem x).mpr (.inl hx)
  refine ⟨h.capacity, ?_, ?_, h.distinct, ?_, ?_⟩
  · intro x hx hstate
    obtain hx | rfl := (hmem x).mp hx
    · exact h.reserved x hx hstate
    · cases hstate
  · intro r hr
    obtain ⟨x, hx, hvp, hstate⟩ := h.finalizing r hr
    exact ⟨x, hkeep x hx, hvp, hstate⟩
  · intro vp
    rw [h.held vp]
    constructor
    · rintro ⟨x, hx, hvp, hstate⟩
      exact ⟨x, hkeep x hx, hvp, hstate⟩
    · rintro ⟨x, hx, hvp, hstate⟩
      obtain hx | rfl := (hmem x).mp hx
      · exact ⟨x, hx, hvp, hstate⟩
      · cases hstate
  · intro vp rest horder
    obtain ⟨x, hx, hvp, hsize⟩ := h.served vp rest horder
    exact ⟨x, hkeep x hx, hvp, hsize⟩

theorem outputLawful_of_empty (hrecords : s.oq.records = []) (hreservations : s.oq.reservations = [])
    (hheld : s.oq.heldOrder = []) (htable : s.stackTable = []) : s.OutputLawful := by
  refine ⟨?_, ?_, ?_, ?_, ?_, ?_⟩ <;> simp [OutputQueue.used, OutputQueue.reserved, *]

theorem closing_outputLawful (h : s.OutputLawful) (htags : s.TagsDistinct) (hk : k ∈ s.stackTable)
    (hopen : k.state = .opened) : (s.updStack k.settings.vp fun k => { k with state := .closing }).OutputLawful := by
  have hmem : ∀ x, x ∈ (s.updStack k.settings.vp fun k => { k with state := .closing }).stackTable ↔
      x = { k with state := .closing } ∨ (x ∈ s.stackTable ∧ x.settings.vp ≠ k.settings.vp) :=
    fun x => mem_map_vp htags.vps hk _
  have hkeep : ∀ x ∈ s.stackTable, x.state ≠ .opened →
      x ∈ (s.updStack k.settings.vp fun k => { k with state := .closing }).stackTable := by
    intro x hx hstate
    refine (hmem x).mpr (.inr ⟨hx, fun heq => hstate ?_⟩)
    rw [eq_of_vp_eq htags.vps hk hx heq, hopen]
  refine ⟨h.capacity, ?_, ?_, h.distinct, ?_, ?_⟩
  · intro x hx hstate
    obtain rfl | ⟨hx, -⟩ := (hmem x).mp hx
    · cases hstate
    · exact h.reserved x hx hstate
  · intro r hr
    obtain ⟨x, hx, hvp, hstate⟩ := h.finalizing r hr
    exact ⟨x, hkeep x hx (by simp [hstate]), hvp, hstate⟩
  · intro vp
    rw [State.updStack_oq, h.held vp]
    constructor
    · rintro ⟨x, hx, hvp, hstate⟩
      exact ⟨x, hkeep x hx (by simp [hstate]), hvp, hstate⟩
    · rintro ⟨x, hx, hvp, hstate⟩
      obtain rfl | ⟨hx, -⟩ := (hmem x).mp hx
      · cases hstate
      · exact ⟨x, hx, hvp, hstate⟩
  · intro vp rest horder
    obtain ⟨x, hx, hvp, hstate⟩ := (h.held vp).mp (by
      rw [State.updStack_oq] at horder
      simp [horder])
    obtain ⟨y, hy, hyvp, hsize⟩ := h.served vp rest horder
    rw [eq_of_vp_eq htags.vps hx hy (hyvp.trans hvp.symm)] at hsize
    exact ⟨x, hkeep x hx (by simp [hstate]), hvp, hsize⟩

/-! ### Every step -/

theorem Change.outputLawful {D : Prop} (h : Change D s t) (htags : s.TagsDistinct) (hs : s.OutputLawful) :
    t.OutputLawful := by
  cases h with
  | announced p a k _ _ =>
    rw [announce_eq]
    exact (hs.updStack a.vp (f := fun y => y.setMap a.number (.announced a.tag)) fun y => ⟨rfl, rfl, rfl⟩).congr rfl rfl
  | aborted e w _ _ => exact hs.abortSweep htags e w
  | merged e x l y d _ _ _ _ => exact hs.mergeSweep htags e y d
  | blocks position effective pending => exact ⟨hs.capacity, hs.reserved, hs.finalizing, hs.distinct, hs.held, hs.served⟩
  | released r rest hrecords => exact hs.released htags hrecords
  | closed vp k hk hopen =>
    obtain ⟨hmem, rfl⟩ := State.findStack_eq_some hk
    exact (closing_outputLawful hs htags hmem hopen).completionTest
      (htags.of_sublist (List.Sublist.refl _) (updStack_tableSettings s k.settings.vp _ fun _ => rfl)) _
  | engineReset => exact outputLawful_of_empty rfl rfl rfl rfl
  | _ => exact hs.congr rfl rfl

theorem TableChange.outputLawful (h : TableChange s t) (htags : s.TagsDistinct) (hs : s.OutputLawful) :
    t.OutputLawful := by
  cases h with
  | opened p k _ _ _ => exact hs.opened k
  | discarded vp k hk => exact hs.discardStack htags (State.findStack_eq_some hk).1
  | finalized vp k hk hstate => exact hs.finalize htags (State.findStack_eq_some hk).1 hstate

/-- Settles O15: space is granted where it fits, and every event that frees space serves the held order. -/
theorem everyStepKeepsTheOutputLaw : Obligations.EveryStepKeepsTheOutputLaw := by
  unfold Obligations.EveryStepKeepsTheOutputLaw
  intro s t htags hs hstep
  exact (step_keeps (D := False) (L := fun s => s.TagsDistinct ∧ s.OutputLawful)
    (fun s straps => ⟨powerOn_tagsDistinct s straps, outputLawful_of_empty rfl rfl rfl rfl⟩)
    (fun s _ => ⟨fullReset_tagsDistinct s, outputLawful_of_empty rfl rfl rfl rfl⟩)
    (fun _ _ h hs => ⟨h.tagsDistinct hs.1, h.outputLawful hs.1 hs.2⟩)
    (fun _ _ h hs => ⟨h.tagsDistinct hs.1, h.outputLawful hs.1 hs.2⟩) (by simp) ⟨htags, hs⟩ hstep).2

end

end Sys2Proof.Machine
end

section
/-! The sweep map law is kept by every step (R118, R120, R125, R133, R134). -/

namespace Sys2Proof.Machine

/-! ### Counts of a map -/

/-- A map entry in ANNOUNCED. -/
def MapEntry.isAnnounced : MapEntry → Bool
  | .announced _ => true
  | .unshot | .retry _ | .merged _ | .abandoned _ _ => false

theorem map_counts_le (l : List MapEntry) :
    l.countP MapEntry.isMerged + l.countP MapEntry.isAbandoned + l.countP MapEntry.isAnnounced ≤ l.length := by
  induction l with
  | nil => simp
  | cons m l ih =>
    rw [List.countP_cons, List.countP_cons, List.countP_cons, List.length_cons]
    cases m <;> simp [MapEntry.isMerged, MapEntry.isAbandoned, MapEntry.isAnnounced] <;> omega

/-- A stack with an ANNOUNCED map entry is not past its completion (R133). -/
theorem Stack.MapLaw.lt_of_announced {k : Stack} (h : k.MapLaw) {n t : Nat} (hn : k.map[n]? = some (.announced t)) :
    k.merged + k.abandoned < k.settings.expected := by
  have hpos : 0 < k.map.countP MapEntry.isAnnounced := List.countP_pos_iff.mpr ⟨_, List.mem_of_getElem? hn, rfl⟩
  have hle := map_counts_le k.map
  rw [← h.count, h.merged, h.abandoned]
  omega

theorem Stack.MapLaw.le (h : Stack.MapLaw k) : k.merged + k.abandoned ≤ k.settings.expected := by
  have hle := map_counts_le k.map
  rw [← h.count, h.merged, h.abandoned]
  omega

theorem countP_set_of_neg {p : MapEntry → Bool} {l : List MapEntry} {i : Nat} {old : MapEntry} (hi : l[i]? = some old)
    (hold : p old = false) (m : MapEntry) : (l.set i m).countP p = l.countP p + if p m then 1 else 0 := by
  obtain ⟨hlt, hget⟩ := List.getElem?_eq_some_iff.mp hi
  rw [List.countP_set hlt, hget]
  simp [hold]

/-! ### The map law while a stack's completion test is still to be run -/

/-- The clauses of the map law that hold before the completion test of a stack (R118, R120, R125). -/
structure State.MapsAgree (s : State) : Prop where
  counts : ∀ k ∈ s.stackTable, k.MapLaw
  announced : ∀ k ∈ s.stackTable, ∀ n t,
    k.map[n]? = some (.announced t) ↔ ∃ e ∈ s.sweeps, e.tag = t ∧ e.vp = k.settings.vp ∧ e.number = n + 1
  listed : ∀ e ∈ s.sweeps, 1 ≤ e.number ∧
    ∃ k ∈ s.stackTable, k.settings.vp = e.vp ∧ (k.state = .opened ∨ k.state = .closing)

/-- A stack that does not stand past its completion (R133, R134). -/
structure State.NotPast (s : State) (k : Stack) : Prop where
  opened : k.state = .opened → k.merged + k.abandoned < k.settings.expected
  closing : k.state = .closing → ∃ e ∈ s.sweeps, e.vp = k.settings.vp

section
variable {s t : State} {k : Stack} {vp : Nat}

theorem State.MapsLawful.agree (h : s.MapsLawful) : s.MapsAgree := ⟨h.counts, h.announced, h.listed⟩

theorem State.MapsLawful.notPast (h : s.MapsLawful) (hk : k ∈ s.stackTable) : s.NotPast k := ⟨h.opened k hk, h.closing k hk⟩

theorem State.MapsAgree.lawful (h : s.MapsAgree) (hpast : ∀ k ∈ s.stackTable, s.NotPast k) : s.MapsLawful :=
  ⟨h.counts, h.announced, h.listed, fun k hk => (hpast k hk).opened, fun k hk => (hpast k hk).closing⟩

/-- The stack a listed sweep belongs to, with distinct VP tags. -/
theorem State.MapsAgree.state_of_listed (h : s.MapsAgree) (htags : s.TagsDistinct) (hk : k ∈ s.stackTable)
    {e : SweepEntry} (he : e ∈ s.sweeps) (hvp : e.vp = k.settings.vp) : k.state = .opened ∨ k.state = .closing := by
  obtain ⟨-, x, hx, hxvp, hstate⟩ := h.listed e he
  rw [eq_of_vp_eq htags.vps hk hx (hxvp.trans hvp)] at hstate
  exact hstate

/-- A listed sweep's place in its stack's map is ANNOUNCED (R125). -/
theorem State.MapsAgree.map_of_listed (h : s.MapsAgree) (hk : k ∈ s.stackTable) {e : SweepEntry} (he : e ∈ s.sweeps)
    (hvp : e.vp = k.settings.vp) : k.map[e.number - 1]? = some (.announced e.tag) := by
  have hnumber := (h.listed e he).1
  exact (h.announced k hk _ _).mpr ⟨e, he, rfl, hvp, by omega⟩

/-- A change of one stack that keeps its settings and its map keeps what the map law says of it. -/
structure Stack.SameMap (k' k : Stack) : Prop where
  settings : k'.settings = k.settings
  map : k'.map = k.map
  merged : k'.merged = k.merged
  abandoned : k'.abandoned = k.abandoned
  retries : k'.retriesUsed = k.retriesUsed

theorem Stack.SameMap.refl (k : Stack) : k.SameMap k := ⟨rfl, rfl, rfl, rfl, rfl⟩

theorem Stack.SameMap.mapLaw {k' : Stack} (h : k'.SameMap k) (hk : k.MapLaw) : k'.MapLaw := by
  obtain ⟨settings, map, merged, abandoned, retries⟩ := h
  obtain ⟨count, hmerged, habandoned, hretries⟩ := hk
  exact ⟨by rw [map, settings]; exact count, by rw [merged, map]; exact hmerged, by rw [abandoned, map]; exact habandoned,
    by rw [retries, settings]; exact hretries⟩

/-- The map law reads of each stack its settings, its map, its counts and its state where sweeps are listed, and of each
entry its tag, stack and number. -/
theorem State.MapsAgree.map (h : s.MapsAgree) {f : Stack → Stack} {g : SweepEntry → SweepEntry}
    (htable : t.stackTable = s.stackTable.map f) (hf : ∀ k ∈ s.stackTable, (f k).SameMap k)
    (hsweeps : t.sweeps = s.sweeps.map g) (hg : ∀ e, (g e).Same e)
    (hstate : ∀ k ∈ s.stackTable, (f k).state = k.state ∨ ((f k).state = .opened ∨ (f k).state = .closing) ∨
      ∀ e ∈ s.sweeps, e.vp ≠ k.settings.vp) : t.MapsAgree := by
  refine ⟨?_, ?_, ?_⟩
  · rw [htable]
    intro k hk
    obtain ⟨x, hx, rfl⟩ := List.mem_map.mp hk
    exact (hf x hx).mapLaw (h.counts x hx)
  · rw [htable, hsweeps]
    intro k hk n tag
    obtain ⟨x, hx, rfl⟩ := List.mem_map.mp hk
    rw [(hf x hx).map, (hf x hx).settings, h.announced x hx n tag]
    constructor
    · rintro ⟨e, he, rfl, hvp, hnumber⟩
      exact ⟨g e, List.mem_map_of_mem he, (hg e).tag, (hg e).vp.trans hvp, (hg e).number.trans hnumber⟩
    · rintro ⟨e, he, rfl, hvp, hnumber⟩
      obtain ⟨y, hy, rfl⟩ := List.mem_map.mp he
      exact ⟨y, hy, (hg y).tag.symm, (hg y).vp.symm.trans hvp, (hg y).number.symm.trans hnumber⟩
  · rw [htable, hsweeps]
    intro e he
    obtain ⟨y, hy, rfl⟩ := List.mem_map.mp he
    obtain ⟨hnumber, k, hk, hvp, hplace⟩ := h.listed y hy
    refine ⟨(hg y).number.symm ▸ hnumber, f k, List.mem_map_of_mem hk, ?_, ?_⟩
    · rw [(hf k hk).settings, hvp, (hg y).vp]
    · obtain hsame | hplace | hnone := hstate k hk
      · rw [hsame]
        exact hplace
      · exact hplace
      · exact absurd hvp.symm (hnone y hy)

theorem State.MapsLawful.sweeps (h : s.MapsLawful) {g : SweepEntry → SweepEntry} (htable : t.stackTable = s.stackTable)
    (hsweeps : t.sweeps = s.sweeps.map g) (hg : ∀ e, (g e).Same e) : t.MapsLawful := by
  refine (h.agree.map (f := id) (by simpa using htable) (fun k _ => .refl k) hsweeps hg fun k _ => .inl rfl).lawful ?_
  rw [htable]
  intro k hk
  refine ⟨h.opened k hk, fun hstate => ?_⟩
  obtain ⟨e, he, hvp⟩ := h.closing k hk hstate
  exact ⟨g e, by rw [hsweeps]; exact List.mem_map_of_mem he, (hg e).vp.trans hvp⟩

theorem State.MapsLawful.congr (h : s.MapsLawful) (htable : t.stackTable = s.stackTable) (hsweeps : t.sweeps = s.sweeps) :
    t.MapsLawful :=
  h.sweeps htable (g := id) (by simpa using hsweeps) SweepEntry.Same.refl

theorem State.MapsLawful.updSweep (h : s.MapsLawful) (tag : Nat) (f : SweepEntry → SweepEntry)
    (hf : ∀ e, (f e).Same e) : (s.updSweep tag f).MapsLawful := by
  refine h.sweeps (t := s.updSweep tag f) rfl (g := fun e => if e.tag = tag then f e else e) rfl fun e => ?_
  split
  · exact hf e
  · exact .refl e

/-- A stack that completes has no listed sweep (R133, R134). -/
theorem State.MapsAgree.unlisted_of_complete (h : s.MapsAgree) (hk : k ∈ s.stackTable) (hcomplete : s.complete k = true) :
    ∀ e ∈ s.sweeps, e.vp ≠ k.settings.vp := by
  intro e he hvp
  cases hstate : k.state with
  | opened =>
    have hlt := (h.counts k hk).lt_of_announced (h.map_of_listed hk he hvp)
    rw [State.complete, hstate] at hcomplete
    have heq : k.merged + k.abandoned = k.settings.expected := by simpa using hcomplete
    omega
  | closing =>
    rw [State.complete, hstate] at hcomplete
    simpa [hvp] using List.all_eq_true.mp hcomplete e he
  | held => simp [State.complete, hstate] at hcomplete
  | finalizing => simp [State.complete, hstate] at hcomplete

/-- The completion test of a stack leaves no stack past its completion (R135). -/
theorem State.MapsAgree.completionTest (h : s.MapsAgree) (htags : s.TagsDistinct) (vp : Nat)
    (hpast : ∀ k ∈ s.stackTable, k.settings.vp ≠ vp → s.NotPast k) : (s.completionTest vp).MapsLawful := by
  obtain ⟨htest, hsame⟩ | ⟨k, hfound, hcomplete, hcase⟩ := s.completionTest_cases vp
  · rw [hsame]
    refine h.lawful fun k hk => ?_
    by_cases hvp : k.settings.vp = vp
    · have htest := htest k (hvp ▸ htags.findStack hk)
      refine ⟨fun hstate => ?_, fun hstate => ?_⟩
      · rw [State.complete, hstate] at htest
        exact lt_of_le_of_ne (h.counts k hk).le (by simpa using htest)
      · rw [State.complete, hstate] at htest
        simpa using htest
    · exact hpast k hk hvp
  · obtain ⟨hk, rfl⟩ := State.findStack_eq_some hfound
    have hnone := h.unlisted_of_complete hk hcomplete
    obtain ⟨st, hst, htable⟩ : ∃ st, (st = .finalizing ∨ st = .held) ∧ (s.completionTest k.settings.vp).stackTable =
        s.stackTable.map fun x => if x.settings.vp = k.settings.vp then x.completed s.listedChannels st else x := by
      obtain ⟨-, -, -, htable⟩ | ⟨-, -, htable⟩ := hcase
      · exact ⟨_, .inl rfl, htable⟩
      · exact ⟨_, .inr rfl, htable⟩
    refine State.MapsAgree.lawful (h.map htable (fun x _ => ?_) (g := id) (by simp) SweepEntry.Same.refl fun x _ => ?_) ?_
    · split
      · exact ⟨rfl, rfl, rfl, rfl, rfl⟩
      · exact .refl x
    · split
      · rename_i hvp
        exact .inr (.inr (hvp.symm ▸ hnone))
      · exact .inl rfl
    · rw [htable]
      intro x hx
      obtain rfl | ⟨hx, hne⟩ := (mem_map_vp htags.vps hk _).mp hx
      · obtain rfl | rfl := hst <;> exact ⟨nofun, nofun⟩
      · obtain ⟨opened, closing⟩ := hpast x hx hne
        exact ⟨opened, by simpa using closing⟩

/-! ### A sweep leaves its stack's map -/

/-- What the leaving of a sweep makes of its stack (R113, R114, R129): the map entry leaves ANNOUNCED and is counted. -/
structure Stack.Settled (k' k : Stack) (n : Nat) : Prop where
  settings : k'.settings = k.settings
  state : k'.state = k.state
  retries : k.retriesUsed ≤ k.settings.retryLimit → k'.retriesUsed ≤ k.settings.retryLimit
  map : ∃ m, (∀ t, m ≠ .announced t) ∧ k'.map = k.map.set (n - 1) m ∧
    k'.merged = k.merged + (if m.isMerged then 1 else 0) ∧ k'.abandoned = k.abandoned + if m.isAbandoned then 1 else 0

theorem Stack.Routed.settled {k' : Stack} {n : Nat} (h : k'.Routed k n) : k'.Settled k n := by
  obtain ⟨m, hannounced, hmerged, hmap, habandoned⟩ := h.map
  exact ⟨h.settings, h.state, h.retries, m, hannounced, hmap, by rw [h.merged, hmerged]; rfl, habandoned⟩

theorem Stack.mergeSweep_settled (k : Stack) (e : SweepEntry) (ts : List TraceResult) :
    (k.mergeSweep e ts).Settled k e.number :=
  ⟨rfl, rfl, id, .merged e.tag, by simp, rfl, rfl, rfl⟩

theorem State.MapsLawful.leave (h : s.MapsLawful) (htags : s.TagsDistinct) {x : SweepEntry} (hx : x ∈ s.sweeps)
    (hsweeps : t.sweeps = s.sweeps.filter fun y => y.tag != x.tag) {f : Stack → Stack}
    (hf : ∀ k ∈ s.stackTable, k.settings.vp = x.vp → (f k).Settled k x.number)
    (htable : t.stackTable = s.stackTable.map fun k => if k.settings.vp = x.vp then f k else k) :
    t.MapsAgree ∧ ∀ k ∈ t.stackTable, k.settings.vp ≠ x.vp → t.NotPast k := by
  obtain ⟨hnumber, k, hk, hkvp, hplace⟩ := h.listed x hx
  rw [← hkvp] at htable
  have hold := h.agree.map_of_listed hk hx hkvp.symm
  obtain ⟨settings, state, retries, m, hannounced, hmap, hmerged, habandoned⟩ := hf k hk hkvp
  have hmem : ∀ y, y ∈ t.sweeps ↔ y ∈ s.sweeps ∧ y.tag ≠ x.tag := by simp [hsweeps]
  have htmem : ∀ y, y ∈ t.stackTable ↔ y = f k ∨ (y ∈ s.stackTable ∧ y.settings.vp ≠ k.settings.vp) := by
    rw [htable]
    exact fun y => mem_map_vp htags.vps hk f
  have hother : ∀ y ∈ s.sweeps, y.vp ≠ x.vp → y.tag ≠ x.tag := fun y hy hne heq =>
    hne (congrArg _ (eq_of_tag_eq htags.tags hy hx heq))
  refine ⟨⟨?_, ?_, ?_⟩, ?_⟩
  · intro y hy
    obtain rfl | ⟨hy, -⟩ := (htmem y).mp hy
    · obtain ⟨count, lmerged, labandoned, lretries⟩ := h.counts k hk
      refine ⟨?_, ?_, ?_, ?_⟩
      · rw [hmap, List.length_set, settings]
        exact count
      · rw [hmap, hmerged, countP_set_of_neg hold rfl, lmerged]
      · rw [hmap, habandoned, countP_set_of_neg hold rfl, labandoned]
      · rw [settings]
        exact retries lretries
    · exact h.counts y hy
  · intro y hy n tag
    obtain rfl | ⟨hy, hne⟩ := (htmem y).mp hy
    · rw [hmap, settings, List.getElem?_set]
      constructor
      · intro hget
        split_ifs at hget with hn
        · exact absurd (Option.some.inj hget) (hannounced tag)
        · obtain ⟨e, he, htag, hvp, heq⟩ := (h.announced k hk n tag).mp hget
          refine ⟨e, (hmem e).mpr ⟨he, fun hxtag => hn ?_⟩, htag, hvp, heq⟩
          rw [eq_of_tag_eq htags.tags he hx hxtag] at heq
          omega
      · rintro ⟨e, he, rfl, hvp, heq⟩
        obtain ⟨he, hne⟩ := (hmem e).mp he
        have hget := (h.announced k hk n e.tag).mpr ⟨e, he, rfl, hvp, heq⟩
        rw [if_neg, hget]
        intro hn
        rw [← hn, hold] at hget
        exact hne (MapEntry.announced.inj (Option.some.inj hget)).symm
    · rw [h.announced y hy n tag]
      constructor
      · rintro ⟨e, he, htag, hvp, heq⟩
        exact ⟨e, (hmem e).mpr ⟨he, hother e he (by rw [hvp, ← hkvp]; exact hne)⟩, htag, hvp, heq⟩
      · rintro ⟨e, he, htag, hvp, heq⟩
        exact ⟨e, ((hmem e).mp he).1, htag, hvp, heq⟩
  · intro e he
    obtain ⟨he, -⟩ := (hmem e).mp he
    obtain ⟨hen, y, hy, hyvp, hystate⟩ := h.listed e he
    refine ⟨hen, ?_⟩
    by_cases hyk : y.settings.vp = k.settings.vp
    · rw [eq_of_vp_eq htags.vps hk hy hyk] at hyvp hystate
      exact ⟨f k, (htmem _).mpr (.inl rfl), settings ▸ hyvp, state ▸ hystate⟩
    · exact ⟨y, (htmem _).mpr (.inr ⟨hy, hyk⟩), hyvp, hystate⟩
  · intro y hy hne
    obtain rfl | ⟨hy, -⟩ := (htmem y).mp hy
    · rw [settings, hkvp] at hne
      exact absurd rfl hne
    · refine ⟨h.opened y hy, fun hstate => ?_⟩
      obtain ⟨e, he, hvp⟩ := h.closing y hy hstate
      exact ⟨e, (hmem e).mpr ⟨he, hother e he (hvp ▸ hne)⟩, hvp⟩

theorem State.MapsLawful.abortSweep (h : s.MapsLawful) (htags : s.TagsDistinct) {e : SweepEntry} (he : e ∈ s.sweeps)
    {w : AbortReason} (hw : w ≠ .discarded) : (s.abortSweep e w).MapsLawful := by
  have hgonetags : (((s.offerAborted e w).withoutSweep e).post (.swAbort e.tag e.vp e.number w.cause)).TagsDistinct :=
    htags.of_sublist (by simp [State.withoutSweep]) (tableSettings_congr (by simp [State.withoutSweep]))
  obtain ⟨f, hf, htable⟩ := route_routedTo hgonetags e hw
  have hstacks : (((s.offerAborted e w).withoutSweep e).post (.swAbort e.tag e.vp e.number w.cause)).stackTable =
      s.stackTable := by simp [State.withoutSweep]
  rw [hstacks] at hf htable
  rw [State.abortSweep_eq s e hw]
  obtain ⟨hagree, hpast⟩ := h.leave htags he (by simp [State.withoutSweep]) (fun k hk hvp => (hf k hk hvp).settled) htable
  exact hagree.completionTest (hgonetags.of_sublist (by simp) (route_tableSettings _ e w)) e.vp hpast

theorem State.MapsLawful.mergeSweep (h : s.MapsLawful) (htags : s.TagsDistinct) {e x : SweepEntry} (hx : x ∈ s.sweeps)
    (hsame : e.Same x) (l : Lane) (d : Disposition) : (s.mergeSweep e l d).MapsLawful := by
  rw [State.mergeSweep_eq]
  generalize hu : ((((s.updStack e.vp fun k => k.mergeSweep e l.result).offerSweep e l d e.qc).withoutSweep e).post
    (.swMerged e.tag e.vp e.number)) = u
  have hsweeps : u.sweeps = s.sweeps.filter fun y => y.tag != x.tag := by simp [← hu, State.withoutSweep, hsame.tag]
  have htable : u.stackTable = s.stackTable.map fun k => if k.settings.vp = x.vp then k.mergeSweep e l.result else k := by
    simp [← hu, State.withoutSweep, updStack_stackTable, hsame.vp]
  have hsettings : u.tableSettings = s.tableSettings :=
    (tableSettings_congr htable).trans (updStack_tableSettings s x.vp (fun k => k.mergeSweep e l.result) fun _ => rfl)
  obtain ⟨hagree, hpast⟩ := h.leave htags hx hsweeps (f := fun k => k.mergeSweep e l.result)
    (fun k _ _ => hsame.number ▸ k.mergeSweep_settled e l.result) htable
  rw [hsame.vp]
  exact hagree.completionTest (htags.of_sublist (hsweeps ▸ List.filter_sublist) hsettings) x.vp hpast

/-! ### A sweep joins its stack's map -/

theorem readAnnouncement_number {p : List Byte} {a : Announcement} (h : readAnnouncement p = some a) : 1 ≤ a.number := by
  unfold readAnnouncement at h
  split at h
  · split_ifs at h with hfields
    cases h
    exact hfields.2.2.1
  · cases h

/-- An announced sweep is listed and its place in its stack's map ANNOUNCED at once (R61). -/
theorem State.MapsLawful.announce (h : s.MapsLawful) (htags : s.TagsDistinct) {p : List Byte} {a : Announcement}
    (hread : readAnnouncement p = some a) (hcheck : announceCheck s a = .ok k) : (announce s a k).MapsLawful := by
  obtain ⟨-, hfresh, hfound, hrefusal⟩ := announceCheck_eq_ok hcheck
  obtain ⟨hopen, -, hmay, -⟩ := stackRefusal_eq_none hrefusal
  obtain ⟨hk, hvp⟩ := State.findStack_eq_some hfound
  have hnumber := readAnnouncement_number hread
  obtain ⟨old, hold, hmay⟩ : ∃ old, k.map[a.number - 1]? = some old ∧ old.mayAnnounce = true := by
    simpa using hmay
  have hnotmerged : old.isMerged = false := by cases old <;> simp [MapEntry.mayAnnounce, MapEntry.isMerged] at hmay ⊢
  have hnotabandoned : old.isAbandoned = false := by
    cases old <;> simp [MapEntry.mayAnnounce, MapEntry.isAbandoned] at hmay ⊢
  rw [announce_eq]
  generalize hnew : ({ newEntry a k with state := newState s (newEntry a k) } : SweepEntry) = x
  have hxtag : x.tag = a.tag := by rw [← hnew]; rfl
  have hxvp : x.vp = k.settings.vp := by rw [← hnew]; exact hvp.symm
  have hxnumber : x.number = a.number := by rw [← hnew]; rfl
  have hmem : ∀ y, y ∈ s.sweeps ++ [x] ↔ y ∈ s.sweeps ∨ y = x := by simp
  have hkeep : ∀ y ∈ s.sweeps, y ∈ s.sweeps ++ [x] := fun y hy => (hmem y).mpr (.inl hy)
  have htmem : ∀ y, y ∈ s.stackTable.map (fun y => if y.settings.vp = a.vp then y.setMap a.number (.announced a.tag) else y) ↔
      y = k.setMap a.number (.announced a.tag) ∨ (y ∈ s.stackTable ∧ y.settings.vp ≠ k.settings.vp) := by
    rw [← hvp]
    exact fun y => mem_map_vp htags.vps hk _
  have hlt : a.number - 1 < k.map.length := (List.getElem?_eq_some_iff.mp hold).1
  have hgetset (n tag : Nat) : (k.setMap a.number (.announced a.tag)).map[n]? = some (.announced tag) ↔
      (n + 1 = a.number ∧ tag = a.tag) ∨ (n + 1 ≠ a.number ∧ k.map[n]? = some (.announced tag)) := by
    simp only [Stack.setMap, List.getElem?_set]
    by_cases hn : a.number - 1 = n
    · subst hn
      rw [if_pos rfl, if_pos hlt]
      simp [Nat.sub_add_cancel hnumber, eq_comm]
    · rw [if_neg hn]
      have hne : n + 1 ≠ a.number := by omega
      simp [hne]
  refine ⟨?_, ?_, ?_, ?_, ?_⟩
  · intro y hy
    obtain rfl | ⟨hy, -⟩ := (htmem y).mp hy
    · obtain ⟨count, lmerged, labandoned, lretries⟩ := h.counts k hk
      refine ⟨(List.length_set ..).trans count, ?_, ?_, lretries⟩
      · exact lmerged.trans (countP_set_of_neg hold hnotmerged (.announced a.tag)).symm
      · exact labandoned.trans (countP_set_of_neg hold hnotabandoned (.announced a.tag)).symm
    · exact h.counts y hy
  · intro y hy n tag
    obtain rfl | ⟨hy, hne⟩ := (htmem y).mp hy
    · rw [hgetset]
      constructor
      · rintro (⟨hn, rfl⟩ | ⟨hn, hget⟩)
        · exact ⟨x, (hmem x).mpr (.inr rfl), hxtag, hxvp, hxnumber.trans hn.symm⟩
        · obtain ⟨e, he, htag, hevp, heq⟩ := (h.announced k hk n tag).mp hget
          exact ⟨e, hkeep e he, htag, hevp, heq⟩
      · rintro ⟨e, he, rfl, hevp, heq⟩
        obtain he | rfl := (hmem e).mp he
        · have hget := (h.announced k hk n e.tag).mpr ⟨e, he, rfl, hevp, heq⟩
          refine .inr ⟨fun hn => ?_, hget⟩
          rw [show n = a.number - 1 by omega, hold] at hget
          cases hget
          cases hmay
        · exact .inl ⟨heq.symm.trans hxnumber, hxtag⟩
    · rw [h.announced y hy n tag]
      constructor
      · rintro ⟨e, he, htag, hevp, heq⟩
        exact ⟨e, hkeep e he, htag, hevp, heq⟩
      · rintro ⟨e, he, htag, hevp, heq⟩
        obtain he | rfl := (hmem e).mp he
        · exact ⟨e, he, htag, hevp, heq⟩
        · exact absurd (hevp.symm.trans hxvp) hne
  · intro e he
    have hfind : ∀ y ∈ s.stackTable, y.settings.vp = e.vp → (y.state = .opened ∨ y.state = .closing) →
        ∃ z ∈ s.stackTable.map (fun y => if y.settings.vp = a.vp then y.setMap a.number (.announced a.tag) else y),
          z.settings.vp = e.vp ∧ (z.state = .opened ∨ z.state = .closing) := by
      intro y hy hyvp hystate
      by_cases hyk : y.settings.vp = k.settings.vp
      · rw [eq_of_vp_eq htags.vps hk hy hyk] at hyvp hystate
        exact ⟨_, (htmem _).mpr (.inl rfl), hyvp, hystate⟩
      · exact ⟨y, (htmem _).mpr (.inr ⟨hy, hyk⟩), hyvp, hystate⟩
    obtain he | rfl := (hmem e).mp he
    · obtain ⟨hen, y, hy, hyvp, hystate⟩ := h.listed e he
      exact ⟨hen, hfind y hy hyvp hystate⟩
    · exact ⟨hxnumber ▸ hnumber, hfind k hk hxvp.symm (.inl hopen)⟩
  · intro y hy hstate
    obtain rfl | ⟨hy, -⟩ := (htmem y).mp hy
    · exact h.opened k hk hopen
    · exact h.opened y hy hstate
  · intro y hy hstate
    have hclosing : ∃ e ∈ s.sweeps, e.vp = y.settings.vp := by
      obtain rfl | ⟨hy, -⟩ := (htmem y).mp hy
      · exact h.closing k hk hstate
      · exact h.closing y hy hstate
    obtain ⟨e, he, hevp⟩ := hclosing
    exact ⟨e, hkeep e he, hevp⟩

/-! ### Stacks that join, leave and are served -/

/-- Serving moves HELD stacks to FINALIZING, those of the order alone (R150). -/
theorem serveHeld_stackTable (order : List Nat) (s : State) : ∃ f : Stack → Stack,
    (s.serveHeld order).stackTable = s.stackTable.map f ∧
      ∀ k, f k = k ∨ (k.settings.vp ∈ order ∧ f k = { k with state := .finalizing }) := by
  induction order generalizing s with
  | nil => exact ⟨id, by simp [State.serveHeld], fun k => .inl rfl⟩
  | cons vp rest ih =>
    unfold State.serveHeld
    split
    · rename_i k hfound
      split
      · obtain ⟨f, htable, hf⟩ := ih (s.grantSpace vp k.recordSize)
        refine ⟨fun x => f (if x.settings.vp = vp then { x with state := .finalizing } else x), ?_, fun x => ?_⟩
        · rw [htable, grantSpace_stackTable, List.map_map]
          rfl
        · dsimp only
          split
          · rename_i hvp
            right
            refine ⟨by simp [hvp], ?_⟩
            obtain hsame | ⟨-, hmoved⟩ := hf { x with state := .finalizing }
            · exact hsame
            · exact hmoved
          · obtain hsame | ⟨hmem, hmoved⟩ := hf x
            · exact .inl hsame
            · exact .inr ⟨List.mem_cons_of_mem _ hmem, hmoved⟩
      · exact ⟨id, by simp, fun k => .inl rfl⟩
    · exact ⟨id, by simp, fun k => .inl rfl⟩

/-- Serving an order of HELD stacks keeps the map law. -/
theorem State.MapsLawful.serve (h : s.MapsLawful)
    (hheld : ∀ k ∈ s.stackTable, k.settings.vp ∈ s.oq.heldOrder → k.state = .held) (htags : s.TagsDistinct) :
    s.serve.MapsLawful := by
  obtain ⟨f, htable, hf⟩ := serveHeld_stackTable s.oq.heldOrder s
  have hunlisted : ∀ k ∈ s.stackTable, k.state = .held → ∀ e ∈ s.sweeps, e.vp ≠ k.settings.vp := by
    intro k hk hstate e he hvp
    have hplace := h.agree.state_of_listed htags hk he hvp
    simp [hstate] at hplace
  refine State.MapsAgree.lawful (h.agree.map htable (fun k _ => ?_) (g := id) (by simp) SweepEntry.Same.refl
    fun k hk => ?_) ?_
  · obtain hsame | ⟨-, hmoved⟩ := hf k
    · rw [hsame]
      exact .refl k
    · rw [hmoved]
      exact ⟨rfl, rfl, rfl, rfl, rfl⟩
  · obtain hsame | ⟨hmem, -⟩ := hf k
    · exact .inl (by rw [hsame])
    · exact .inr (.inr (hunlisted k hk (hheld k hk hmem)))
  · intro x hx
    have hx : x ∈ s.stackTable.map f := htable ▸ hx
    obtain ⟨k, hk, rfl⟩ := List.mem_map.mp hx
    obtain hsame | ⟨-, hmoved⟩ := hf k
    · rw [hsame]
      exact ⟨h.opened k hk, by simpa using h.closing k hk⟩
    · rw [hmoved]
      exact ⟨nofun, nofun⟩

/-- A stack leaves the table with its listed sweeps (R140, R155). -/
theorem State.MapsLawful.drop (h : s.MapsLawful) (vp : Nat)
    (hsweeps : ∀ e, e ∈ t.sweeps ↔ e ∈ s.sweeps ∧ e.vp ≠ vp)
    (htable : t.stackTable = s.stackTable.filter fun k => k.settings.vp != vp) : t.MapsLawful := by
  have hmem : ∀ x, x ∈ t.stackTable ↔ x ∈ s.stackTable ∧ x.settings.vp ≠ vp := by simp [htable]
  refine ⟨?_, ?_, ?_, ?_, ?_⟩
  · exact fun k hk => h.counts k ((hmem k).mp hk).1
  · intro k hk n tag
    obtain ⟨hk, hne⟩ := (hmem k).mp hk
    rw [h.announced k hk n tag]
    constructor
    · rintro ⟨e, he, htag, hvp, heq⟩
      exact ⟨e, (hsweeps e).mpr ⟨he, hvp ▸ hne⟩, htag, hvp, heq⟩
    · rintro ⟨e, he, htag, hvp, heq⟩
      exact ⟨e, ((hsweeps e).mp he).1, htag, hvp, heq⟩
  · intro e he
    obtain ⟨he, hne⟩ := (hsweeps e).mp he
    obtain ⟨hnumber, k, hk, hvp, hstate⟩ := h.listed e he
    exact ⟨hnumber, k, (hmem k).mpr ⟨hk, hvp ▸ hne⟩, hvp, hstate⟩
  · exact fun k hk => h.opened k ((hmem k).mp hk).1
  · intro k hk hstate
    obtain ⟨hk, hne⟩ := (hmem k).mp hk
    obtain ⟨e, he, hvp⟩ := h.closing k hk hstate
    exact ⟨e, (hsweeps e).mpr ⟨he, hvp ▸ hne⟩, hvp⟩

theorem mem_discardSweeps (htags : s.TagsDistinct) (vp : Nat) (e : SweepEntry) :
    e ∈ (s.discardSweeps vp).sweeps ↔ e ∈ s.sweeps ∧ e.vp ≠ vp := by
  unfold State.discardSweeps
  rw [foldl_abort_sweeps, List.mem_filter]
  refine and_congr_right fun he => ?_
  rw [List.all_eq_true]
  constructor
  · intro hall hvp
    simpa using hall e (List.mem_filter.mpr ⟨he, by simpa using hvp⟩)
  · intro hne x hx
    obtain ⟨hx, hvp⟩ := List.mem_filter.mp hx
    have htag : e.tag ≠ x.tag := by
      intro heq
      rw [eq_of_tag_eq htags.tags he hx heq] at hne
      exact hne (by simpa using hvp)
    simpa using htag

/-- The tags of a held order name HELD stacks alone (R149). -/
theorem State.OutputLawful.held_of_mem (h : s.OutputLawful) (htags : s.TagsDistinct) (hk : k ∈ s.stackTable)
    (hmem : k.settings.vp ∈ s.oq.heldOrder) : k.state = .held := by
  by_contra hstate
  exact h.unserved.not_held htags hk hstate hmem

theorem State.MapsLawful.discardStack (h : s.MapsLawful) (hout : s.OutputLawful) (htags : s.TagsDistinct)
    (hk : k ∈ s.stackTable) : (s.discardStack k).MapsLawful := by
  have hunlisted (hstate : k.state = .held ∨ k.state = .finalizing) :
      ∀ e, e ∈ s.sweeps ↔ e ∈ s.sweeps ∧ e.vp ≠ k.settings.vp := by
    refine fun e => ⟨fun he => ⟨he, fun hvp => ?_⟩, And.left⟩
    have hplace := h.agree.state_of_listed htags hk he hvp
    obtain hstate | hstate := hstate <;> simp [hstate] at hplace
  have hserve : ∀ u : State, u.stackTable = s.stackTable → u.sweeps = s.sweeps →
      (∀ v ∈ u.oq.heldOrder, v ∈ s.oq.heldOrder) → (k.state = .held ∨ k.state = .finalizing) →
      (u.dropStack k.settings.vp).serve.MapsLawful := by
    intro u htable hsweeps hheld hstate
    have hdrop : (u.dropStack k.settings.vp).MapsLawful :=
      h.drop k.settings.vp (by rw [State.dropStack_sweeps, hsweeps]; exact hunlisted hstate) (by simp [htable])
    refine hdrop.serve (fun x hx hmem => ?_) ?_
    · rw [State.dropStack_stackTable, htable] at hx
      exact hout.held_of_mem htags (List.mem_filter.mp hx).1 (hheld _ hmem)
    · exact dropStack_tagsDistinct ⟨hsweeps ▸ htags.tags, htable ▸ htags.vps⟩ _
  obtain ⟨hstate, hcase⟩ | ⟨hstate, -, hcase⟩ | ⟨hstate, -, hcase⟩ | ⟨hstate, hcase⟩ := s.discardStack_cases k
  · rw [hcase]
    exact h.drop k.settings.vp (mem_discardSweeps htags k.settings.vp) (by simp)
  · rw [hcase]
    exact hserve (s.leaveHeld k.settings.vp) rfl rfl (fun v hv => (List.mem_filter.mp hv).1) (.inl hstate)
  · rw [hcase]
    exact h.drop k.settings.vp (hunlisted (.inl hstate)) rfl
  · rw [hcase]
    exact hserve (s.unreserve k.settings.vp) rfl rfl (fun v hv => hv) (.inr hstate)

theorem State.MapsLawful.finalize (h : s.MapsLawful) (htags : s.TagsDistinct) (hk : k ∈ s.stackTable)
    (hstate : k.state = .finalizing) : (s.finalize k).MapsLawful := by
  refine h.drop k.settings.vp (fun e => ?_) (finalize_stackTable s k)
  rw [State.finalize_sweeps]
  refine ⟨fun he => ⟨he, fun hvp => ?_⟩, And.left⟩
  have hplace := h.agree.state_of_listed htags hk he hvp
  simp [hstate] at hplace

/-- Settings read from a payload lie in their columns (R119, R122). -/
theorem readStackSettings_lawful {p : List Byte} {k : StackSettings} (h : readStackSettings p = some k) : k.Lawful := by
  unfold readStackSettings at h
  split at h
  · rename_i wm lw lf gp ks _ hwindow hfloor _ _
    split_ifs at h with hfields
    cases h
    obtain ⟨hvp, hexpected, hexpected', hlisten, hlisten', hshift, hretry⟩ := hfields
    have hvp' := field_lt p 0 4
    have hfloor' : lf ≤ 31 := by
      unfold readFloor at hfloor
      split_ifs at hfloor <;> cases hfloor <;> omega
    exact ⟨⟨hvp, by dsimp only; omega⟩, ⟨hexpected, hexpected'⟩, ⟨hlisten, hlisten'⟩, hshift, List.mem_of_getElem? hwindow, hfloor',
      hretry⟩
  · cases h

/-- A new stack has no sweep and no map entry out of OPEN (R120). -/
theorem State.MapsLawful.openStack (h : s.MapsLawful) {k : StackSettings} (hk : k.Lawful)
    (hnew : ∀ x ∈ s.stackTable, x.settings.vp ≠ k.vp) :
    State.MapsLawful { s with stackTable := s.stackTable ++ [Stack.new k] } := by
  have hmem : ∀ x, x ∈ s.stackTable ++ [Stack.new k] ↔ x ∈ s.stackTable ∨ x = Stack.new k := by simp
  refine ⟨?_, ?_, ?_, ?_, ?_⟩
  · intro x hx
    obtain hx | rfl := (hmem x).mp hx
    · exact h.counts x hx
    · refine ⟨List.length_replicate, ?_, ?_, Nat.zero_le _⟩ <;>
        simp [Stack.new, List.countP_replicate, MapEntry.isMerged, MapEntry.isAbandoned]
  · intro x hx n tag
    obtain hx | rfl := (hmem x).mp hx
    · exact h.announced x hx n tag
    · constructor
      · intro hget
        have hunshot := List.eq_of_mem_replicate (List.mem_of_getElem? hget)
        cases hunshot
      · rintro ⟨e, he, -, hvp, -⟩
        obtain ⟨-, x, hx, hxvp, -⟩ := h.listed e he
        exact absurd (hxvp.trans hvp) (hnew x hx)
  · intro e he
    obtain ⟨hnumber, x, hx, hvp, hstate⟩ := h.listed e he
    exact ⟨hnumber, x, (hmem x).mpr (.inl hx), hvp, hstate⟩
  · intro x hx hstate
    obtain hx | rfl := (hmem x).mp hx
    · exact h.opened x hx hstate
    · exact hk.expected.1
  · intro x hx hstate
    obtain hx | rfl := (hmem x).mp hx
    · exact h.closing x hx hstate
    · cases hstate

/-- An OPEN stack is closed (R137). -/
theorem State.MapsLawful.close (h : s.MapsLawful) (htags : s.TagsDistinct) (hk : k ∈ s.stackTable) :
    ((s.updStack k.settings.vp fun k => { k with state := .closing }).completionTest k.settings.vp).MapsLawful := by
  have hclosing : State.MapsAgree (s.updStack k.settings.vp fun k => { k with state := .closing }) := by
    refine h.agree.map (t := s.updStack k.settings.vp fun k => { k with state := .closing }) rfl (fun x _ => ?_) (g := id)
      (by simp) SweepEntry.Same.refl fun x _ => ?_
    · split
      · exact ⟨rfl, rfl, rfl, rfl, rfl⟩
      · exact .refl x
    · split
      · exact .inr (.inl (.inr rfl))
      · exact .inl rfl
  refine hclosing.completionTest
    (htags.of_sublist (List.Sublist.refl _) (updStack_tableSettings s k.settings.vp _ fun _ => rfl)) _ fun x hx hne => ?_
  obtain rfl | ⟨hx, -⟩ := (mem_map_vp htags.vps hk _).mp hx
  · exact absurd rfl hne
  · exact ⟨h.opened x hx, h.closing x hx⟩

theorem mapsLawful_of_empty (hsweeps : s.sweeps = []) (htable : s.stackTable = []) : s.MapsLawful := by
  refine ⟨?_, ?_, ?_, ?_, ?_⟩ <;> simp [hsweeps, htable]

/-! ### Every step -/

theorem Change.mapsLawful (h : Change True s t) (htags : s.TagsDistinct) (hout : s.OutputLawful) (hs : s.MapsLawful) :
    t.MapsLawful := by
  cases h with
  | readied =>
    exact hs.sweeps (t := s.readinessAll) rfl (g := fun e => { e with state := readiness s.ports e }) rfl
      fun e => ⟨rfl, rfl, rfl, rfl, rfl, rfl, rfl⟩
  | announced p a k hread hcheck => exact hs.announce htags hread hcheck
  | aborted e w he hw => exact hs.abortSweep htags (he trivial) hw
  | granted e k l r clips _ _ _ _ =>
    exact (hs.updSweep e.tag (·.grantedTo l) fun x => ⟨rfl, rfl, rfl, rfl, rfl, rfl, rfl⟩).congr rfl rfl
  | waits e l limit _ _ _ _ =>
    exact (hs.updSweep e.tag (fun x => { x with state := .qcWait, qcTimer := some limit })
      fun x => ⟨rfl, rfl, rfl, rfl, rfl, rfl, rfl⟩).congr rfl rfl
  | merged e x l y d hx hsame _ _ => exact hs.mergeSweep htags hx hsame y d
  | stored e r _ _ _ =>
    exact hs.updSweep e.tag (fun x => { x with qc := some r }) fun x => ⟨rfl, rfl, rfl, rfl, rfl, rfl, rfl⟩
  | released r rest _ =>
    exact State.MapsLawful.serve (s := { s with oq := { s.oq with records := rest, readPosition := 0 } })
      (hs.congr rfl rfl) (fun k hk hmem => hout.held_of_mem htags hk hmem) ⟨htags.tags, htags.vps⟩
  | closed vp k hk _ =>
    obtain ⟨hmem, rfl⟩ := State.findStack_eq_some hk
    exact hs.close htags hmem
  | engineReset => exact mapsLawful_of_empty rfl rfl
  | _ => exact hs.congr rfl rfl

theorem TableChange.mapsLawful (h : TableChange s t) (htags : s.TagsDistinct) (hout : s.OutputLawful) (hs : s.MapsLawful) :
    t.MapsLawful := by
  cases h with
  | opened p k hread _ hnew =>
    refine hs.openStack (readStackSettings_lawful hread) fun x hx heq => ?_
    simpa [heq] using List.find?_eq_none.mp hnew x hx
  | discarded vp k hk => exact hs.discardStack hout htags (State.findStack_eq_some hk).1
  | finalized vp k hk hstate => exact hs.finalize htags (State.findStack_eq_some hk).1 hstate

/-- Settles O14: a sweep enters and leaves the list with its map entry, and each leaving runs the completion test. -/
theorem everyStepKeepsTheSweepMapLaw : Obligations.EveryStepKeepsTheSweepMapLaw := by
  unfold Obligations.EveryStepKeepsTheSweepMapLaw
  intro s t htags hout hs hstep
  exact (step_keeps (D := True) (L := fun s => s.TagsDistinct ∧ s.OutputLawful ∧ s.MapsLawful)
    (fun s straps => ⟨powerOn_tagsDistinct s straps, outputLawful_of_empty rfl rfl rfl rfl, mapsLawful_of_empty rfl rfl⟩)
    (fun s _ => ⟨fullReset_tagsDistinct s, outputLawful_of_empty rfl rfl rfl rfl, mapsLawful_of_empty rfl rfl⟩)
    (fun _ _ h ⟨htags, hout, hs⟩ => ⟨h.tagsDistinct htags, h.outputLawful htags hout, h.mapsLawful htags hout hs⟩)
    (fun _ _ h ⟨htags, hout, hs⟩ => ⟨h.tagsDistinct htags, h.outputLawful htags hout, h.mapsLawful htags hout hs⟩)
    (fun _ => htags.tags) ⟨htags, hout, hs⟩ hstep).2.2

end

end Sys2Proof.Machine
end

section
/-! The arithmetic of jobs, merges and records: levels, weights, accumulators, stacked samples (R86 to R93, R127 to R130, R153). -/

namespace Sys2Proof.Machine

/-! ### Diversity windows and levels -/

theorem div_lt_windowCount {listen divWindow k : Nat} (hk : k < listen) (hw : 1 ≤ divWindow) :
    k / divWindow < windowCount listen divWindow := by
  unfold windowCount
  rw [Nat.div_lt_iff_lt_mul hw]
  have hceil := Nat.lt_div_mul_add (a := listen + divWindow - 1) hw
  omega

theorem mem_window_iff {ys : List Int} {a n : Nat} {y : Int} :
    y ∈ (ys.drop a).take n ↔ ∃ k, a ≤ k ∧ k < a + n ∧ ys[k]? = some y := by
  rw [List.mem_iff_getElem?]
  constructor
  · rintro ⟨i, hi⟩
    rw [List.getElem?_take] at hi
    split_ifs at hi with hin
    rw [List.getElem?_drop] at hi
    exact ⟨a + i, by omega, by omega, hi⟩
  · rintro ⟨k, hak, hkn, hk⟩
    refine ⟨k - a, ?_⟩
    rw [List.getElem?_take, if_pos (by omega), List.getElem?_drop, Nat.add_sub_cancel' hak]
    exact hk

@[simp] theorem levels_length (listen divWindow : Nat) (ys : List Int) :
    (levels listen divWindow ys).length = windowCount listen divWindow := by
  simp [levels]

theorem levels_getElem? {listen divWindow w n : Nat} {ys : List Int} (h : (levels listen divWindow ys)[w]? = some n) :
    n = bitLength (peak ((ys.drop (w * divWindow)).take divWindow)) := by
  obtain ⟨hw, hn⟩ := List.getElem?_eq_some_iff.mp h
  rw [← hn]
  simp [levels]

/-- A level is the least whose power of two exceeds every magnitude in its window (R92). -/
theorem level_spec {listen divWindow w n : Nat} {ys : List Int} (h : (levels listen divWindow ys)[w]? = some n) :
    (∀ k y, w * divWindow ≤ k → k < (w + 1) * divWindow → ys[k]? = some y → y.natAbs < 2 ^ n) ∧
      (n = 0 ∨ ∃ k y, w * divWindow ≤ k ∧ k < (w + 1) * divWindow ∧ ys[k]? = some y ∧ 2 ^ (n - 1) ≤ y.natAbs) := by
  rw [levels_getElem? h, Nat.succ_mul]
  obtain ⟨hlt, hleast⟩ := bitLength_spec (peak ((ys.drop (w * divWindow)).take divWindow))
  obtain ⟨hbound, hreached⟩ := peak_spec ((ys.drop (w * divWindow)).take divWindow)
  refine ⟨fun k y hk hk' hy => lt_of_le_of_lt (hbound y (mem_window_iff.mpr ⟨k, hk, hk', hy⟩)) hlt, ?_⟩
  obtain hzero | hpow := hleast
  · exact .inl hzero
  · obtain hpeak | ⟨y, hy, hpeak⟩ := hreached
    · rw [hpeak] at hpow ⊢
      simp [bitLength]
    · obtain ⟨k, hk, hk', hy⟩ := mem_window_iff.mp hy
      exact .inr ⟨k, y, hk, hk', hy, hpeak ▸ hpow⟩

/-! ### The merge arithmetic -/

/-- The weight of a diversity window of a trace (R127, R128). -/
def StackSettings.windowWeight (k : StackSettings) (t : TraceResult) (i : Nat) : Int :=
  match k.weighting with
  | .plain => 1
  | .diversity => 2 ^ (31 - max (t.levels.getD i 0) k.floor)

section
variable {k : StackSettings} {t : TraceResult}

theorem traceWeights_length (hlevels : t.levels.length = windowCount k.listen k.divWindow) :
    (traceWeights k t).length = windowCount k.listen k.divWindow := by
  unfold traceWeights
  cases k.weighting <;> simp [hlevels]

theorem traceWeights_getElem (hlevels : t.levels.length = windowCount k.listen k.divWindow) {i : Nat}
    (hi : i < windowCount k.listen k.divWindow) : (traceWeights k t)[i]? = some (k.windowWeight t i) := by
  unfold traceWeights StackSettings.windowWeight
  cases k.weighting with
  | plain => simp [hi]
  | diversity =>
    have hlt : i < t.levels.length := hlevels ▸ hi
    simp [hlt, weight]

/-- The numerators a merge leaves (R129). -/
theorem accumulate_numerator (hlevels : t.levels.length = windowCount k.listen k.divWindow) (hw : 1 ≤ k.divWindow)
    {a : Accumulators} {j : Nat} {n y : Int} (hj : j < k.listen) (hn : a.numerators[j]? = some n)
    (hy : t.samples[j]? = some y) :
    (accumulate k t a).numerators[j]? = some (n + y * k.windowWeight t (j / k.divWindow)) := by
  have hweight := traceWeights_getElem hlevels (div_lt_windowCount hj hw)
  have hzip : (a.numerators.zip t.samples)[j]? = some (n, y) := by
    rw [List.getElem?_zip_eq_some]
    exact ⟨hn, hy⟩
  simp [accumulate, List.getElem?_zipIdx, hzip, List.getD_eq_getElem?_getD, hweight]

/-- The denominators a merge leaves (R129). -/
theorem accumulate_denominator (hlevels : t.levels.length = windowCount k.listen k.divWindow) {a : Accumulators} {i : Nat}
    {d : Int} (hi : i < windowCount k.listen k.divWindow) (hd : a.denominators[i]? = some d) :
    (accumulate k t a).denominators[i]? = some (d + k.windowWeight t i) := by
  simp [accumulate, List.getElem?_zipWith, hd, traceWeights_getElem hlevels hi]

theorem accumulate_lengths (hlevels : t.levels.length = windowCount k.listen k.divWindow) {a : Accumulators}
    (hnumerators : a.numerators.length = k.listen) (hsamples : t.samples.length = k.listen)
    (hdenominators : a.denominators.length = windowCount k.listen k.divWindow) :
    (accumulate k t a).numerators.length = k.listen ∧
      (accumulate k t a).denominators.length = windowCount k.listen k.divWindow := by
  simp [accumulate, hnumerators, hsamples, hdenominators, traceWeights_length hlevels]

end

section
variable {k : StackSettings} {ts : List TraceResult} {accs : Vector Accumulators 480}

/-- A channel without a kept trace keeps its accumulators (R129). -/
theorem accumulateAll_get_of_none {c : Fin 480} (h : ∀ t ∈ ts, t.channel = c → t.dropped = true) :
    (accumulateAll k ts accs)[c] = accs[c] := by
  induction ts generalizing accs with
  | nil => rfl
  | cons t ts ih =>
    refine (ih fun u hu => h u (List.mem_cons_of_mem _ hu)).trans ?_
    dsimp only
    split
    · rfl
    · rename_i hkept
      exact table_set_other _ _ fun hc => hkept (h t List.mem_cons_self hc)

/-- A channel with a kept trace has it in its accumulators once (R129). -/
theorem accumulateAll_get_of_mem (hdistinct : (ts.map (·.channel)).Nodup) {t : TraceResult} (ht : t ∈ ts)
    (hkept : t.dropped = false) : (accumulateAll k ts accs)[t.channel] = accumulate k t accs[t.channel] := by
  induction ts generalizing accs with
  | nil => cases ht
  | cons u ts ih =>
    obtain ⟨hfresh, hdistinct⟩ := List.nodup_cons.mp hdistinct
    have hother : ∀ x ∈ ts, x.channel ≠ u.channel := fun x hx heq => hfresh (List.mem_map.mpr ⟨x, hx, heq⟩)
    show (accumulateAll k ts (if u.dropped then accs else accs.set u.channel (accumulate k u accs[u.channel])))[t.channel] = _
    obtain rfl | ht := List.mem_cons.mp ht
    · rw [accumulateAll_get_of_none fun x hx heq => absurd heq (hother x hx), if_neg (by simp [hkept]), table_set_same]
    · rw [ih hdistinct ht]
      split
      · rfl
      · rw [table_set_other _ _ (Ne.symm (hother t ht))]

end

theorem getD_of_getElem? {α : Type} {l : List α} {i : Nat} {x d : α} (h : l[i]? = some x) : l.getD i d = x := by
  rw [List.getD_eq_getElem?_getD, h]
  rfl

theorem getElem?_of_lt {l : List Int} {i : Nat} (h : i < l.length) : l[i]? = some (l.getD i 0) := by
  rw [List.getElem?_eq_getElem h, List.getD_eq_getElem _ _ h]

/-- Settles O41: each kept trace of a channel enters its accumulators once, lag by lag and window by window. -/
theorem mergeArithmeticIsExact : Obligations.MergeArithmeticIsExact := by
  unfold Obligations.MergeArithmeticIsExact
  intro k ts accs c hdistinct
  refine ⟨accumulateAll_get_of_none, ?_⟩
  rintro t ht rfl hkept hnumerators hsamples hdenominators hlevels hw
  dsimp only
  rw [accumulateAll_get_of_mem hdistinct ht hkept]
  obtain ⟨hnlength, hdlength⟩ := accumulate_lengths hlevels hnumerators hsamples hdenominators
  refine ⟨hnlength, hdlength, fun j hj => ?_, fun i hi => ?_, rfl, rfl, rfl⟩
  · exact getD_of_getElem? (accumulate_numerator hlevels hw hj (getElem?_of_lt (hnumerators ▸ hj))
      (getElem?_of_lt (hsamples ▸ hj)))
  · exact getD_of_getElem? (accumulate_denominator hlevels hi (getElem?_of_lt (hdenominators ▸ hi)))

/-! ### The job's result -/

theorem map_fst_zip_sublist {α β : Type} (l : List α) (m : List β) : ((l.zip m).map Prod.fst).Sublist l := by
  induction l generalizing m with
  | nil => simp
  | cons a l ih =>
    cases m with
    | nil => simp
    | cons b m => simpa using ih m

theorem liveChannels_pairwise (sn : List SnapshotEntry) : ((liveChannels sn).map Prod.fst).Pairwise (· < ·) := by
  have hzip : (((List.finRange 480).zip sn).map Prod.fst).Pairwise (· < ·) := by
    exact (List.pairwise_lt_finRange 480).sublist (map_fst_zip_sublist _ _)
  rw [List.pairwise_map] at hzip ⊢
  unfold liveChannels
  refine List.Pairwise.filterMap _ (fun x y hxy a ha b hb => ?_) hzip
  split_ifs at ha hb
  cases ha
  cases hb
  exact hxy

/-- The window of a channel a job reads (R87). -/
def Lane.windowOf (l : Lane) (j : JobParams) (c : Fin 480) : List (Option Sample) :=
  windowSamples ((l.window[(channelPort c).val]?).getD []) (channelSlot c) j.start (j.windowEnd + 1 - j.start)

theorem Lane.jobResult_eq {l : Lane} {j : JobParams} (h : l.params = some j) :
    l.jobResult = (liveChannels l.snapshot).map fun cp =>
      traceResult j (l.reference.map BitVec.toInt) cp.1 cp.2 (l.windowOf j cp.1) := by
  unfold Lane.jobResult
  rw [h]
  rfl

theorem Lane.jobResult_channels {l : Lane} {j : JobParams} (h : l.params = some j) :
    l.jobResult.map (·.channel) = (liveChannels l.snapshot).map Prod.fst := by
  rw [Lane.jobResult_eq h, List.map_map]
  exact List.map_congr_left fun cp _ => traceResult_channel ..

@[simp] theorem windowSamples_length (ring : Ring) (slot start count : Nat) :
    (windowSamples ring slot start count).length = count := by
  simp [windowSamples]

theorem windowSamples_getElem? {ring : Ring} {slot start count i : Nat} (h : i < count) :
    (windowSamples ring slot start count)[i]? = some (ringSample ring slot (start + i)) := by
  simp [windowSamples, h]

/-- A window has a gap exactly where one of its indices has no sample (R88). -/
theorem windowSamples_none {ring : Ring} {slot start count : Nat} :
    none ∈ windowSamples ring slot start count ↔ ∃ i, start ≤ i ∧ i < start + count ∧ ringSample ring slot i = none := by
  simp only [windowSamples, List.mem_map, List.mem_range]
  constructor
  · rintro ⟨i, hi, hnone⟩
    exact ⟨start + i, by omega, by omega, hnone⟩
  · rintro ⟨i, hi, hi', hnone⟩
    exact ⟨i - start, by omega, by rw [Nat.add_sub_cancel' hi]; exact hnone⟩

/-- The dropped trace of a channel whose window has gaps under the policy DROP (R88). -/
theorem traceResult_of_dropped (j : JobParams) (r : List Int) (c : Fin 480) (pol : Polarity) (window : List (Option Sample))
    (h : j.gap = .drop ∧ none ∈ window) : traceResult j r c pol window =
      { channel := c, dropped := true, holed := false, samples := [], saturated := 0, levels := [] } := by
  have hgaps : j.gap = .drop ∧ window.any Option.isNone = true := by simpa using h
  exact if_pos hgaps

theorem traceResult_dropped_iff (j : JobParams) (r : List Int) (c : Fin 480) (pol : Polarity)
    (window : List (Option Sample)) :
    (traceResult j r c pol window).dropped = true ↔ j.gap = .drop ∧ none ∈ window := by
  by_cases h : j.gap = .drop ∧ none ∈ window
  · simp [traceResult_of_dropped j r c pol window h, h]
  · rw [traceResult_of_kept j r c pol window h]
    simp [h]

/-- The scaled sums of a window that is long enough, as sums of products over the reference (R89, R90). -/
theorem scaledSums_eq {j : JobParams} {r : List Int} {pol : Polarity} {window : List (Option Sample)} {x : Nat → Int}
    (hx : ∀ i, i < window.length → (window.map fun d => (d.map (polarised pol)).getD 0).getD i 0 = x i)
    (hlength : j.listen + r.length ≤ window.length + 1) : scaledSums j r pol window =
      (List.range j.listen).map fun k => roundShift j.shift (∑ i ∈ Finset.range r.length, r.getD i 0 * x (k + i)) := by
  unfold scaledSums correlate
  rw [List.map_map]
  refine List.map_congr_left fun k hk => ?_
  have hk := List.mem_range.mp hk
  rw [Function.comp_apply, dot_eq_sum]
  · congr 1
    refine Finset.sum_congr rfl fun i hi => ?_
    have hi := Finset.mem_range.mp hi
    rw [← hx (k + i) (by omega), List.getD_eq_getElem?_getD, List.getD_eq_getElem?_getD, List.getElem?_drop,
      List.getD_eq_getElem?_getD]
  · rw [List.length_drop, List.length_map]
    omega

/-- A level of clamped samples is at most 31 (R91, R92). -/
theorem level_le {listen divWindow w n : Nat} {ys : List Int} (hys : ∀ y ∈ ys, y.natAbs ≤ 2147483647)
    (h : (levels listen divWindow ys)[w]? = some n) : n ≤ 31 := by
  obtain hzero | ⟨k, y, -, -, hy, hpow⟩ := (level_spec h).2
  · omega
  · by_contra hn
    have hmono : 2 ^ 31 ≤ 2 ^ (n - 1) := Nat.pow_le_pow_right (by omega) (by omega)
    have := hys y (List.mem_of_getElem? hy)
    omega

theorem clampTo_traceBound_natAbs (v : Int) : (clampTo traceBound v).natAbs ≤ 2147483647 := by
  have := clampTo_traceBound_range v
  omega

/-- Settles O44: the result is a trace for each LIVE channel, and a trace the clamped scaled sums of its channel's window. -/
theorem jobResultsAreTheClampedCorrelations : Obligations.JobResultsAreTheClampedCorrelations := by
  unfold Obligations.JobResultsAreTheClampedCorrelations
  intro l j hparams hreference hlength hlisten hw hend hsnapshot hwindow
  refine ⟨?_, fun c => ?_, fun t ht => ?_⟩
  · rw [Lane.jobResult_channels hparams]
    exact liveChannels_pairwise l.snapshot
  · rw [Lane.jobResult_channels hparams, List.mem_map]
    constructor
    · rintro ⟨⟨c, pol⟩, hmem, rfl⟩
      simp [(mem_liveChannels _ hsnapshot c pol).mp hmem]
    · intro hlive
      obtain ⟨⟨st, pol⟩, hget, rfl⟩ := Option.map_eq_some_iff.mp hlive
      exact ⟨(c, pol), (mem_liveChannels _ hsnapshot c pol).mpr hget, rfl⟩
  · rw [Lane.jobResult_eq hparams] at ht
    obtain ⟨⟨c, pol⟩, hmem, hresult⟩ := List.mem_map.mp ht
    obtain rfl : t.channel = c := by rw [← hresult, traceResult_channel]
    have hget := (mem_liveChannels _ hsnapshot t.channel pol).mp hmem
    intro d x gaps total scaled y
    have hcount : j.windowEnd + 1 - j.start = j.length + j.listen - 1 := by omega
    have hwin : l.windowOf j t.channel = windowSamples (l.window.getD (t.channel.val / 120) []) (t.channel.val % 120) j.start
        (j.length + j.listen - 1) := by
      rw [← hcount, List.getD_eq_getElem?_getD]
      rfl
    have hgaps : none ∈ l.windowOf j t.channel ↔ gaps := by
      rw [hwin, windowSamples_none]
      exact exists_congr fun i => and_congr_right fun hi => and_congr_left' (by omega)
    have hx : ∀ i, x i = ((d i).map (polarised pol)).getD 0 := by
      intro i
      simp only [x]
      cases d i with
      | none => rfl
      | some v => cases pol <;> simp [hget, polarised]
    have hscaled : scaledSums j (l.reference.map BitVec.toInt) pol (l.windowOf j t.channel) =
        (List.range j.listen).map scaled := by
      rw [scaledSums_eq (x := fun i => x (j.start + i))]
      · refine List.map_congr_left fun k _ => ?_
        simp only [scaled, total, List.length_map, hreference]
        congr 1
        refine Finset.sum_congr rfl fun i _ => ?_
        rw [Nat.add_assoc, ← List.getD_map (f := BitVec.toInt)]
        rfl
      · intro i hi
        rw [hwin, windowSamples_length] at hi
        rw [hwin, List.getD_eq_getElem?_getD, List.getElem?_map, windowSamples_getElem? hi, hx]
        rfl
      · rw [hwin, windowSamples_length, List.length_map, hreference]
        omega
    have hy : ((List.range j.listen).map scaled).map (clampTo traceBound) = (List.range j.listen).map y := by
      rw [List.map_map]
      exact List.map_congr_left fun k _ => clampTo_traceBound _
    rw [← hresult, traceResult_dropped_iff, hgaps]
    refine ⟨Iff.rfl, fun hdropped => ?_, fun hkept => ?_⟩
    · rw [traceResult_of_dropped _ _ _ _ _ (by rw [hgaps]; exact hdropped)]
      exact ⟨rfl, rfl, rfl, rfl⟩
    · have hkept : ¬ (j.gap = .drop ∧ none ∈ l.windowOf j t.channel) := by
        rw [← traceResult_dropped_iff, hkept]
        exact Bool.false_ne_true
      rw [traceResult_of_kept _ _ _ _ _ hkept, hscaled, hy]
      refine ⟨by simpa using hgaps, rfl, ?_, levels_length .., fun w n hn => ?_⟩
      · rw [List.countP_map]
        refine List.countP_congr fun k _ => ?_
        rw [Function.comp_apply, clamps_traceBound]
        simp only [decide_eq_true_eq]
        exact or_comm
      · have hgetelem : ∀ k v, ((List.range j.listen).map y)[k]? = some v ↔ k < j.listen ∧ y k = v := by
          intro k v
          rw [List.getElem?_map, Option.map_eq_some_iff]
          by_cases hk : k < j.listen
          · simp [hk]
          · simp [hk]
        obtain ⟨hbound, hleast⟩ := level_spec hn
        refine ⟨level_le (fun v hv => ?_) hn, fun k hk hk' hlt => hbound k _ hk hk' ((hgetelem k _).mpr ⟨hlt, rfl⟩), ?_⟩
        · rw [← hy] at hv
          obtain ⟨u, -, rfl⟩ := List.mem_map.mp hv
          exact clampTo_traceBound_natAbs u
        · refine hleast.imp_right ?_
          rintro ⟨k, v, hk, hk', hget, hpow⟩
          obtain ⟨hlt, rfl⟩ := (hgetelem k v).mp hget
          exact ⟨k, hk, hk', hlt, hpow⟩

/-! ### Stacked samples -/

/-- The magnitude of a rounded quotient is at most half a denominator away from the exact one. -/
theorem rounded_quotient_near {m d : Int} (hd : 1 ≤ d) :
    -d ≤ 2 * ((2 * m + d) / (2 * d) * d - m) ∧ 2 * ((2 * m + d) / (2 * d) * d - m) ≤ d := by
  have hdiv := Int.emod_add_mul_ediv (2 * m + d) (2 * d)
  have hnonneg := Int.emod_nonneg (2 * m + d) (show 2 * d ≠ 0 by omega)
  have hlt := Int.emod_lt_of_pos (2 * m + d) (show 0 < 2 * d by omega)
  generalize (2 * m + d) / (2 * d) = q at *
  generalize (2 * m + d) % (2 * d) = r at *
  constructor <;> nlinarith

/-- Between integers that bracket an exact quotient, a nearest integer of it lies. -/
theorem nearest_between {n d z low high : Int} (hd : 1 ≤ d) (hnear : 2 * |z * d - n| ≤ d) (hlow : low * d ≤ n)
    (hhigh : n ≤ high * d) : low ≤ z ∧ z ≤ high := by
  obtain ⟨hbelow, habove⟩ := abs_le.mp (show |z * d - n| ≤ d / 2 by omega)
  constructor
  · by_contra hlt
    have hle : z + 1 ≤ low := by omega
    have := mul_le_mul_of_nonneg_right hle (show (0 : Int) ≤ d by omega)
    rw [add_mul, one_mul] at this
    omega
  · by_contra hlt
    have hle : high + 1 ≤ z := by omega
    have := mul_le_mul_of_nonneg_right hle (show (0 : Int) ≤ d by omega)
    rw [add_mul, one_mul] at this
    omega

/-- A stacked sample in integers (R153). -/
theorem stackedSample_eq {n d : Int} (hd : 1 ≤ d) : stackedSample n d = n.sign * ((2 * |n| + d) / (2 * d)) := by
  obtain ⟨m, rfl⟩ := Int.eq_ofNat_of_zero_le (show 0 ≤ d by omega)
  rw [stackedSample, Int.abs_eq_natAbs, Int.natAbs_natCast]
  push_cast
  rfl

/-- Rounding half away from zero gives a nearest integer (R153). -/
theorem stackedSample_near {n d : Int} (hd : 1 ≤ d) : 2 * |stackedSample n d * d - n| ≤ d := by
  obtain ⟨hbelow, habove⟩ := rounded_quotient_near (m := |n|) hd
  rw [stackedSample_eq hd]
  have habs : |n.sign * ((2 * |n| + d) / (2 * d)) * d - n| ≤ |(2 * |n| + d) / (2 * d) * d - abs n| := by
    obtain hpos | rfl | hneg := lt_trichotomy 0 n
    · rw [Int.sign_eq_one_of_pos hpos, one_mul, abs_of_pos hpos]
    · rw [Int.sign_zero, zero_mul, zero_mul, sub_zero, abs_zero]
      exact abs_nonneg _
    · rw [Int.sign_eq_neg_one_of_neg hneg, abs_of_neg hneg, ← abs_neg]
      apply le_of_eq
      congr 1
      ring
  have hhalf : |(2 * |n| + d) / (2 * d) * d - abs n| ≤ d / 2 := abs_le.mpr ⟨by omega, by omega⟩
  omega

theorem stackedSamples_getElem? {divWindow : Nat} {a : Accumulators} {k : Nat} {n : Int} (h : a.numerators[k]? = some n) :
    (stackedSamples divWindow a)[k]? = some
      (if a.mergeCount = 0 then 0 else stackedSample n (a.denominators.getD (k / divWindow) 1)) := by
  simp [stackedSamples, List.getElem?_zipIdx, h]

@[simp] theorem stackedSamples_length (divWindow : Nat) (a : Accumulators) :
    (stackedSamples divWindow a).length = a.numerators.length := by
  simp [stackedSamples]

/-- Settles O54: the rounded quotient is off by half a denominator at most, so it stays between bracketing integers. -/
theorem stackedSamplesAreRoundedMeans : Obligations.StackedSamplesAreRoundedMeans := by
  unfold Obligations.StackedSamplesAreRoundedMeans
  refine ⟨fun divWindow a hzero => ?_, fun divWindow a hmerged hwindows hdenominators => ?_⟩
  · refine List.eq_replicate_of_mem ?_ |>.trans (by rw [stackedSamples_length])
    intro z hz
    obtain ⟨⟨n, k⟩, -, rfl⟩ := List.mem_map.mp hz
    exact if_pos hzero
  · refine ⟨stackedSamples_length divWindow a, fun k hk => ?_⟩
    have hget := stackedSamples_getElem? (divWindow := divWindow) (getElem?_of_lt hk)
    rw [if_neg (by omega)] at hget
    have hd := getElem?_of_lt (hwindows k hk)
    have hpos := hdenominators _ (List.mem_of_getElem? hd)
    rw [getD_of_getElem? hd] at hget
    dsimp only
    rw [getD_of_getElem? hget]
    refine ⟨stackedSample_eq hpos, stackedSample_near hpos, fun low high => nearest_between hpos (stackedSample_near hpos)⟩

end Sys2Proof.Machine
end

section
/-! The work law is kept by every step (R83, R85, R119, R121, R130, R145). -/

namespace Sys2Proof.Machine

/-! ### Results that fit a stack's settings -/

/-- What a job's trace says of a stack it can merge into: lags, levels, magnitudes and count (R89 to R92). -/
structure TraceResult.Fits (t : TraceResult) (k : StackSettings) : Prop where
  samples : t.samples.length = k.listen
  levels : t.levels.length = windowCount k.listen k.divWindow
  bound : ∀ y ∈ t.samples, y.natAbs ≤ 2147483647
  below : ∀ i y l, t.samples[i]? = some y → t.levels[i / k.divWindow]? = some l → y.natAbs < 2 ^ l
  saturated : t.saturated ≤ k.listen

/-- A result with one trace for each of its channels, each kept one fitting. -/
structure ResultFits (ts : List TraceResult) (k : StackSettings) : Prop where
  distinct : (ts.map (·.channel)).Nodup
  fits : ∀ t ∈ ts, t.dropped = false → t.Fits k

theorem StackSettings.Lawful.divWindow_pos {k : StackSettings} (h : k.Lawful) : 1 ≤ k.divWindow := by
  have hmem := h.divWindow
  simp only [divWindowList, List.mem_cons, List.not_mem_nil, or_false] at hmem
  omega

theorem traceResult_fits {j : JobParams} {k : StackSettings} (hlisten : j.listen = k.listen)
    (hdiv : j.divWindow = k.divWindow) (hw : 1 ≤ k.divWindow) (r : List Int) (c : Fin 480) (pol : Polarity)
    (window : List (Option Sample)) (hkept : (traceResult j r c pol window).dropped = false) :
    (traceResult j r c pol window).Fits k := by
  have hnot : ¬ (j.gap = .drop ∧ none ∈ window) := by
    rw [← traceResult_dropped_iff j r c pol window, hkept]
    exact Bool.false_ne_true
  rw [traceResult_of_kept j r c pol window hnot]
  refine ⟨by simp [hlisten], by simp [hlisten, hdiv], ?_, ?_, ?_⟩
  · intro y hy
    obtain ⟨v, -, rfl⟩ := List.mem_map.mp hy
    exact clampTo_traceBound_natAbs v
  · intro i y l hy hl
    rw [← hdiv] at hl hw
    exact (level_spec hl).1 i y (Nat.div_mul_le_self i _) ((Nat.div_lt_iff_lt_mul hw).mp (Nat.lt_succ_self _)) hy
  · exact List.countP_le_length.trans_eq ((length_scaledSums j r pol window).trans hlisten)

/-- What a lane's job leaves fits the stack whose parameters it works under (R85). -/
theorem jobResult_fits {l : Lane} {e : SweepEntry} {k : StackSettings} (h : l.params = some (jobParams e k))
    (hk : k.Lawful) : ResultFits l.jobResult k := by
  refine ⟨?_, fun t ht hkept => ?_⟩
  · rw [Lane.jobResult_channels h]
    exact (liveChannels_pairwise l.snapshot).imp fun h => ne_of_lt h
  · rw [Lane.jobResult_eq h] at ht
    obtain ⟨cp, -, rfl⟩ := List.mem_map.mp ht
    exact traceResult_fits rfl rfl hk.divWindow_pos _ _ _ _ hkept

/-! ### The bounds of a merge -/

theorem windowWeight_range (k : StackSettings) (t : TraceResult) (i : Nat) :
    1 ≤ k.windowWeight t i ∧ k.windowWeight t i ≤ 2147483648 := by
  unfold StackSettings.windowWeight
  split
  · omega
  · have hle : (2 : Int) ^ (31 - max (t.levels.getD i 0) k.floor) ≤ 2 ^ 31 := pow_le_pow_right₀ (by omega) (by omega)
    exact ⟨one_le_pow₀ (by omega), hle⟩

/-- A weighted sample stays below 2^31: its level bounds it where the weight grows (R128, R130). -/
theorem weighted_le {k : StackSettings} {t : TraceResult} (h : t.Fits k) {i l : Nat} {y : Int}
    (hy : t.samples[i]? = some y) (hl : t.levels[i / k.divWindow]? = some l) :
    (y * k.windowWeight t (i / k.divWindow)).natAbs ≤ 2147483647 := by
  have hbound := h.bound y (List.mem_of_getElem? hy)
  have hbelow := h.below i y l hy hl
  unfold StackSettings.windowWeight
  split
  · simpa using hbound
  · rw [getD_of_getElem? hl, Int.natAbs_mul, Int.natAbs_pow]
    show y.natAbs * 2 ^ (31 - max l k.floor) ≤ _
    obtain hle | hgt := Nat.lt_or_ge 31 l
    · rw [Nat.sub_eq_zero_of_le (by omega), pow_zero, mul_one]
      exact hbound
    · have hpow : 2 ^ (31 - max l k.floor) ≤ 2 ^ (31 - l) := Nat.pow_le_pow_right (by omega) (by omega)
      have hsplit : 2 ^ l * 2 ^ (31 - l) = 2147483648 := by
        rw [← pow_add, Nat.add_sub_cancel' hgt]
        rfl
      have hone : 1 ≤ 2 ^ (31 - l) := Nat.one_le_two_pow
      have hmul : y.natAbs * 2 ^ (31 - max l k.floor) ≤ (2 ^ l - 1) * 2 ^ (31 - l) :=
        Nat.mul_le_mul (by omega) hpow
      rw [Nat.sub_mul, one_mul, hsplit] at hmul
      omega

/-- The accumulators of a channel after one more merge (R130). -/
theorem Accumulators.Lawful.accumulate {a : Accumulators} {k k' : Stack} (h : a.Lawful k) (hk : k.settings.Lawful)
    {t : TraceResult} (ht : t.Fits k.settings) (hsettings : k'.settings = k.settings) (hmerged : k'.merged = k.merged + 1) :
    (accumulate k.settings t a).Lawful k' := by
  obtain ⟨hlags, hwindows⟩ := accumulate_lengths ht.levels h.lags ht.samples h.windows
  refine ⟨hsettings ▸ hlags, hsettings ▸ hwindows, ?_, ?_, ?_, ?_⟩
  · rw [hmerged]
    exact Nat.succ_le_succ h.merges
  · intro n hn
    obtain ⟨j, hj⟩ := List.mem_iff_getElem?.mp hn
    have hlt : j < k.settings.listen := hlags ▸ (List.getElem?_eq_some_iff.mp hj).1
    have hold := getElem?_of_lt (h.lags.symm ▸ hlt)
    have hy := getElem?_of_lt (ht.samples.symm ▸ hlt)
    have hl := List.getElem?_eq_getElem (ht.levels.symm ▸ div_lt_windowCount hlt hk.divWindow_pos)
    rw [accumulate_numerator ht.levels hk.divWindow_pos hlt hold hy] at hj
    obtain rfl := Option.some.inj hj
    have hsum := h.sums _ (List.mem_of_getElem? hold)
    have hterm := weighted_le ht hy hl
    show _ ≤ (a.mergeCount + 1) * 2147483647
    refine (Int.natAbs_add_le _ _).trans ?_
    omega
  · intro d hd
    obtain ⟨i, hi⟩ := List.mem_iff_getElem?.mp hd
    have hlt : i < windowCount k.settings.listen k.settings.divWindow :=
      hwindows ▸ (List.getElem?_eq_some_iff.mp hi).1
    have hold := getElem?_of_lt (h.windows.symm ▸ hlt)
    rw [accumulate_denominator ht.levels hlt hold] at hi
    obtain rfl := Option.some.inj hi
    obtain ⟨hlow, hhigh⟩ := h.weights _ (List.mem_of_getElem? hold)
    obtain ⟨hwlow, hwhigh⟩ := windowWeight_range k.settings t i
    show ((a.mergeCount + 1 : Nat) : Int) ≤ _ ∧ _ ≤ ((a.mergeCount + 1 : Nat) : Int) * 2147483648
    push_cast
    omega
  · show a.saturatedTotal + t.saturated ≤ (a.mergeCount + 1) * k'.settings.listen
    have hsaturated := h.saturated
    have := ht.saturated
    rw [hsettings, Nat.succ_mul]
    omega

/-- The accumulators depend on the stack's settings and its number of merges alone, and a higher number keeps them. -/
theorem Accumulators.Lawful.of_le {a : Accumulators} {k k' : Stack} (h : a.Lawful k) (hsettings : k'.settings = k.settings)
    (hmerged : k.merged ≤ k'.merged) : a.Lawful k' :=
  ⟨hsettings ▸ h.lags, hsettings ▸ h.windows, h.merges.trans hmerged, h.sums, h.weights, hsettings ▸ h.saturated⟩

/-- The accumulators of a stack after a merge of a fitting result. -/
theorem Stack.mergeSweep_accs {k : Stack} (hk : k.settings.Lawful) (haccs : ∀ c : Fin 480, k.accs[c].Lawful k)
    (e : SweepEntry) {ts : List TraceResult} (hts : ResultFits ts k.settings) (c : Fin 480) :
    (k.mergeSweep e ts).accs[c].Lawful (k.mergeSweep e ts) := by
  show (accumulateAll k.settings ts k.accs)[c].Lawful _
  by_cases hkept : ∃ t ∈ ts, t.channel = c ∧ t.dropped = false
  · obtain ⟨t, ht, rfl, hkept⟩ := hkept
    rw [accumulateAll_get_of_mem hts.distinct ht hkept]
    exact (haccs t.channel).accumulate hk (hts.fits t ht hkept) rfl rfl
  · rw [accumulateAll_get_of_none]
    · exact (haccs c).of_le rfl (Nat.le_succ _)
    · intro t ht hc
      by_contra hdropped
      exact hkept ⟨t, ht, hc, by simpa using hdropped⟩

/-! ### The sizes of records -/

@[simp] theorem leInt_length (n : Nat) (v : Int) : (leInt n v).length = n := by
  simp [leInt]

@[simp] theorem sampleBytes_length (ys : List Int) : (sampleBytes ys).length = 4 * ys.length :=
  flatMap_length _ 4 ys fun y _ => leInt_length 4 y

@[simp] theorem referenceBytes_length (r : Reference) : (referenceBytes r).length = 4 := by
  cases r <;> simp [referenceBytes]

@[simp] theorem qcBytes_length (q : Option QcRecord) : (qcBytes q).length = 8 := by
  cases q <;> simp [qcBytes]

@[simp] theorem outcomeBytes_length (map : List MapEntry) : (outcomeBytes map).length = 32 := by
  simp [outcomeBytes]

/-- A sweep record of a fitting result carries as many bytes as its size says (R199, R200). -/
theorem sweepContent_length (e : SweepEntry) {k : StackSettings} {l : Lane} (n : Nat) (d : Disposition)
    (qc : Option QcRecord) (interval : SampleInterval) (channels : Vector ChannelEntry 480) (h : ResultFits l.result k) :
    (sweepContent e k l n d qc interval channels).length = sweepRecordSize l.result.length k.listen := by
  have hheader : (sweepHeader e k l.clipCount n l.result.length d qc interval).length = 48 := by
    simp [sweepHeader]
  have htraces : (l.result.flatMap (sweepTrace k.listen channels l.snapshot)).length =
      traceSize k.listen * l.result.length := by
    refine flatMap_length _ _ _ fun t ht => ?_
    by_cases hdropped : t.dropped = true
    · simp [sweepTrace, traceSize, hdropped]
      omega
    · have hkept : t.dropped = false := by simpa using hdropped
      simp [sweepTrace, traceSize, hkept, (h.fits t ht hkept).samples]
      omega
  rw [sweepContent, List.length_append, hheader, htraces, sweepRecordSize, Nat.mul_comm]

/-- A stack record carries as many bytes as its size says (R198, R200). -/
theorem stackContent_length {k : Stack} (n : Nat) (interval : SampleInterval) (channels : Vector ChannelEntry 480)
    (h : ∀ c : Fin 480, k.accs[c].Lawful k) : (stackContent k n interval channels).length = k.recordSize := by
  have hheader : (stackHeader k n interval).length = 64 := by
    simp [stackHeader]
  have htraces : (k.channelList.flatMap (stackTrace k channels)).length =
      traceSize k.settings.listen * k.channelList.length := by
    refine flatMap_length _ _ _ fun c _ => ?_
    simp [-Fin.getElem_fin, stackTrace, traceSize, (h c.channel).lags]
    omega
  rw [stackContent, List.length_append, hheader, htraces, Stack.recordSize, stackRecordSize, Nat.mul_comm]

/-! ### Stacks that keep their settings, accumulators and merges -/

/-- A stack with the same work in it. -/
structure Stack.SameWork (k' k : Stack) : Prop where
  settings : k'.settings = k.settings
  accs : k'.accs = k.accs
  merged : k'.merged = k.merged

theorem Stack.SameWork.refl (k : Stack) : k.SameWork k := ⟨rfl, rfl, rfl⟩

theorem Stack.SameWork.trans {a b c : Stack} (h : a.SameWork b) (h' : b.SameWork c) : a.SameWork c :=
  ⟨h.settings.trans h'.settings, h.accs.trans h'.accs, h.merged.trans h'.merged⟩

/-- Every stack of a state has the work of one of another. -/
def State.StacksFrom (t s : State) : Prop := ∀ k' ∈ t.stackTable, ∃ k ∈ s.stackTable, k'.SameWork k

section
variable {s t u : State}

theorem State.StacksFrom.of_sublist (h : t.stackTable.Sublist s.stackTable) : t.StacksFrom s :=
  fun k hk => ⟨k, h.subset hk, .refl k⟩

theorem State.StacksFrom.of_eq (h : t.stackTable = s.stackTable) : t.StacksFrom s := .of_sublist (h ▸ List.Sublist.refl _)

theorem State.StacksFrom.trans (h : u.StacksFrom t) (h' : t.StacksFrom s) : u.StacksFrom s := by
  intro k hk
  obtain ⟨x, hx, hkx⟩ := h k hk
  obtain ⟨y, hy, hxy⟩ := h' x hx
  exact ⟨y, hy, hkx.trans hxy⟩

theorem State.StacksFrom.of_map {f : Stack → Stack} (h : t.stackTable = s.stackTable.map f)
    (hf : ∀ k ∈ s.stackTable, (f k).SameWork k) : t.StacksFrom s := by
  intro k hk
  rw [h] at hk
  obtain ⟨x, hx, rfl⟩ := List.mem_map.mp hk
  exact ⟨x, hx, hf x hx⟩

theorem State.StacksFrom.updStack (vp : Nat) {f : Stack → Stack} (hf : ∀ k, (f k).SameWork k) :
    (s.updStack vp f).StacksFrom s := by
  refine .of_map (t := s.updStack vp f) rfl fun k _ => ?_
  split
  · exact hf k
  · exact .refl k

theorem completionTest_stacksFrom (s : State) (vp : Nat) : (s.completionTest vp).StacksFrom s := by
  obtain ⟨-, hsame⟩ | ⟨k, -, -, ⟨-, -, -, htable⟩ | ⟨-, -, htable⟩⟩ := s.completionTest_cases vp
  · rw [hsame]
    exact .of_eq rfl
  · refine .of_map htable fun x _ => ?_
    split
    · exact ⟨rfl, rfl, rfl⟩
    · exact .refl x
  · refine .of_map htable fun x _ => ?_
    split
    · exact ⟨rfl, rfl, rfl⟩
    · exact .refl x

theorem State.RoutedTo.stacksFrom {e : SweepEntry} (h : s.RoutedTo t e) : t.StacksFrom s := by
  obtain ⟨f, hf, htable⟩ := h
  refine .of_map htable fun k hk => ?_
  split
  · rename_i hvp
    obtain ⟨settings, -, -, accs, merged, -, -⟩ := hf k hk hvp
    exact ⟨settings, accs, merged⟩
  · exact .refl k

theorem abortSweep_stacksFrom (htags : s.TagsDistinct) (e : SweepEntry) (w : AbortReason) :
    (s.abortSweep e w).StacksFrom s := by
  have hgone : (((s.offerAborted e w).withoutSweep e).post (.swAbort e.tag e.vp e.number w.cause)).StacksFrom s :=
    .of_eq (by simp [State.withoutSweep])
  have hgonetags : (((s.offerAborted e w).withoutSweep e).post (.swAbort e.tag e.vp e.number w.cause)).TagsDistinct :=
    htags.of_sublist (by simp [State.withoutSweep]) (tableSettings_congr (by simp [State.withoutSweep]))
  by_cases hw : w = .discarded
  · unfold State.abortSweep
    rw [State.leave_abort, if_pos hw]
    exact hgone
  · rw [State.abortSweep_eq s e hw]
    exact (completionTest_stacksFrom _ _).trans ((route_routedTo hgonetags e hw).stacksFrom.trans hgone)

theorem serve_stacksFrom (s : State) : s.serve.StacksFrom s := by
  obtain ⟨f, htable, hf⟩ := serveHeld_stackTable s.oq.heldOrder s
  refine .of_map htable fun k _ => ?_
  obtain hsame | ⟨-, hmoved⟩ := hf k
  · rw [hsame]
    exact .refl k
  · rw [hmoved]
    exact ⟨rfl, rfl, rfl⟩

/-! ### The work law and what a change makes of it -/

/-- The lane of an entry works under the entry's and the stack's parameters, and holds the job's result in QCWAIT. -/
def State.Works (s : State) (e : SweepEntry) (l : Fin 4) : Prop :=
  ∃ k ∈ s.stackTable, k.settings.vp = e.vp ∧
    s.lanes[l].params = some (jobParams e k.settings) ∧ (e.state = .qcWait → s.lanes[l].result = s.lanes[l].jobResult)

theorem SweepEntry.Same.jobParams {e x : SweepEntry} (h : e.Same x) (k : StackSettings) : jobParams e k = jobParams x k := by
  unfold Machine.jobParams
  rw [h.start, h.length, h.windowEnd]

/-- The records of a queue carry as many bytes as their sizes say (R200). -/
def OutputQueue.Sized (q : OutputQueue) : Prop := ∀ r ∈ q.records, r.content.length = r.size

/-- The work law after a change that keeps the work of the stacks that stay, and under which no entry comes to a lane. -/
theorem State.WorkLawful.of_parts (h : s.WorkLawful) (hstacks : t.StacksFrom s)
    (hkept : ∀ k ∈ s.stackTable, (∃ e ∈ t.sweeps, e.vp = k.settings.vp) → ∃ k' ∈ t.stackTable, k'.settings = k.settings)
    (hsweeps : ∀ e' ∈ t.sweeps, ∃ e ∈ s.sweeps, e'.Same e ∧ ∀ l, e'.lane = some l → t.Works e' l ∨
      (e.lane = some l ∧ t.lanes[l] = s.lanes[l] ∧ (e'.state = .qcWait → e.state = .qcWait)))
    (hrecords : t.oq.Sized) : t.WorkLawful := by
  refine ⟨?_, ?_, ?_, ?_, hrecords⟩
  · intro k hk
    obtain ⟨x, hx, hsame⟩ := hstacks k hk
    rw [hsame.settings]
    exact h.settings x hx
  · intro k hk c
    obtain ⟨x, hx, hsame⟩ := hstacks k hk
    rw [hsame.accs]
    exact (h.accumulators x hx c).of_le hsame.settings hsame.merged.ge
  · intro e he k hk hvp
    obtain ⟨x, hx, hsame⟩ := hstacks k hk
    obtain ⟨y, hy, hey, -⟩ := hsweeps e he
    rw [hsame.settings] at hvp ⊢
    rw [hey.windowEnd, hey.start, hey.length]
    exact h.ends y hy x hx (hvp.trans hey.vp)
  · intro e he l hlane
    obtain ⟨y, hy, hey, hjob⟩ := hsweeps e he
    obtain hworks | ⟨hylane, hlanes, hstate⟩ := hjob l hlane
    · exact hworks
    · obtain ⟨k, hk, hvp, hparams, hresult⟩ := h.jobs y hy l hylane
      obtain ⟨k', hk', hsettings⟩ := hkept k hk ⟨e, he, hey.vp.trans hvp.symm⟩
      refine ⟨k', hk', ?_, ?_, fun hwaits => ?_⟩
      · rw [hsettings, hvp, hey.vp]
      · rw [hlanes, hsettings, hey.jobParams]
        exact hparams
      · rw [hlanes]
        exact hresult (hstate hwaits)

/-- The stacks that keep their settings stay. -/
theorem kept_of_tableSettings (h : t.tableSettings = s.tableSettings) {k : Stack} (hk : k ∈ s.stackTable) :
    ∃ k' ∈ t.stackTable, k'.settings = k.settings := by
  have hmem : k.settings ∈ t.tableSettings := h ▸ List.mem_map_of_mem hk
  exact List.mem_map.mp hmem

/-- Entries that keep all but their state, lane, record and timer, and keep their lane, whose state is QCWAIT only where it
was. -/
theorem State.WorkLawful.map (h : s.WorkLawful) (hstacks : t.StacksFrom s) (hsettings : t.tableSettings = s.tableSettings)
    (hlanes : t.lanes = s.lanes) {g : SweepEntry → SweepEntry} (hsweeps : t.sweeps = s.sweeps.map g)
    (hg : ∀ e, (g e).Same e ∧ (g e).lane = e.lane ∧ ((g e).state = .qcWait → e.state = .qcWait)) (hrecords : t.oq.Sized) :
    t.WorkLawful := by
  refine h.of_parts hstacks (fun k hk _ => kept_of_tableSettings hsettings hk) (fun e he => ?_) hrecords
  rw [hsweeps] at he
  obtain ⟨x, hx, rfl⟩ := List.mem_map.mp he
  obtain ⟨hsame, hlane, hstate⟩ := hg x
  exact ⟨x, hx, hsame, fun l hl => .inr ⟨hlane ▸ hl, by rw [hlanes], hstate⟩⟩

theorem State.WorkLawful.congr (h : s.WorkLawful) (hstacks : t.StacksFrom s) (hsettings : t.tableSettings = s.tableSettings)
    (hlanes : t.lanes = s.lanes) (hsweeps : t.sweeps = s.sweeps) (hrecords : t.oq.Sized) : t.WorkLawful :=
  h.map hstacks hsettings hlanes (g := id) (by simpa using hsweeps) (fun e => ⟨.refl e, rfl, id⟩) hrecords

/-- A change of none of the tables the law reads. -/
theorem State.WorkLawful.same (h : s.WorkLawful) (htable : t.stackTable = s.stackTable) (hlanes : t.lanes = s.lanes)
    (hsweeps : t.sweeps = s.sweeps) (hrecords : t.oq.records = s.oq.records) : t.WorkLawful :=
  h.congr (.of_eq htable) (tableSettings_congr htable) hlanes hsweeps fun r hr => h.records r (hrecords ▸ hr)

/-- A sweep leaves: the lanes of the others are not freed (R83). -/
theorem State.WorkLawful.leave (h : s.WorkLawful) (hlawful : s.LanesLawful) (htags : s.TagsDistinct) {x : SweepEntry}
    (hx : x ∈ s.sweeps) (hsweeps : t.sweeps = s.sweeps.filter fun y => y.tag != x.tag)
    (hlanes : t.lanes = freedLanes s.lanes x.lane) (hstacks : t.StacksFrom s)
    (hsettings : t.tableSettings = s.tableSettings) (hrecords : t.oq.Sized) : t.WorkLawful := by
  refine h.of_parts hstacks (fun k hk _ => kept_of_tableSettings hsettings hk) (fun e he => ?_) hrecords
  rw [hsweeps] at he
  obtain ⟨he, hne⟩ := List.mem_filter.mp he
  refine ⟨e, he, .refl e, fun l hl => .inr ⟨hl, ?_, id⟩⟩
  rw [hlanes, freedLanes_get, if_neg]
  intro hxl
  rw [hlawful.eq_of_lane htags he hx hl hxl] at hne
  simp at hne

/-- The stack whose parameters a listed entry's lane works under, with distinct VP tags. -/
theorem State.WorkLawful.fits_of_lane (h : s.WorkLawful) (htags : s.TagsDistinct) {e : SweepEntry} (he : e ∈ s.sweeps)
    {l : Fin 4} (hlane : e.lane = some l) {k : Stack} (hk : k ∈ s.stackTable) (hvp : k.settings.vp = e.vp) :
    ResultFits s.lanes[l].jobResult k.settings ∧ (e.state = .qcWait → s.lanes[l].result = s.lanes[l].jobResult) := by
  obtain ⟨x, hx, hxvp, hparams, hresult⟩ := h.jobs e he l hlane
  obtain rfl := eq_of_vp_eq htags.vps hk hx (hxvp.trans hvp.symm)
  exact ⟨jobResult_fits hparams (h.settings x hx), hresult⟩

/-- An offer of a fitting result keeps the sizes of the records (R157). -/
theorem offerSweep_sized {e : SweepEntry} {l : Lane} (d : Disposition) (q : Option QcRecord) (h : s.oq.Sized)
    (hfits : ∀ k, s.findStack e.vp = some k → ResultFits l.result k.settings) : (s.offerSweep e l d q).oq.Sized := by
  obtain hsame | ⟨k, hk, -, -, happend⟩ := offerSweep_oq s e l d q
  · rw [hsame]
    exact h
  · rw [happend]
    intro r hr
    obtain hr | hr := List.mem_append.mp hr
    · exact h r hr
    · rw [List.mem_singleton.mp hr]
      exact sweepContent_length e _ d q s.interval s.channels (hfits k hk)

theorem OutputQueue.Sized.congr {q q' : OutputQueue} (h : q.Sized) (hrecords : q'.records = q.records) : q'.Sized :=
  fun r hr => h r (hrecords ▸ hr)

theorem offerAborted_sized (h : s.WorkLawful) (htags : s.TagsDistinct) {e : SweepEntry} (he : e ∈ s.sweeps)
    (w : AbortReason) : (s.offerAborted e w).oq.Sized := by
  obtain hsame | ⟨l, d, q, hwaits, hlane, hoffer⟩ := offerAborted_cases s e w
  · rw [hsame]
    exact h.records
  · rw [hoffer]
    refine offerSweep_sized d q h.records fun k hk => ?_
    obtain ⟨hmem, hvp⟩ := State.findStack_eq_some hk
    obtain ⟨hfits, hresult⟩ := h.fits_of_lane htags he hlane hmem hvp
    rw [hresult hwaits]
    exact hfits

theorem State.WorkLawful.abortSweep (h : s.WorkLawful) (hlawful : s.LanesLawful) (htags : s.TagsDistinct) {e : SweepEntry}
    (he : e ∈ s.sweeps) (w : AbortReason) : (s.abortSweep e w).WorkLawful := by
  refine h.leave hlawful htags he (State.abortSweep_sweeps s e w) (State.abortSweep_lanes s e w)
    (abortSweep_stacksFrom htags e w) (abortSweep_tableSettings s e w) ?_
  have hoffer := offerAborted_sized h htags he w
  have hgone : (((s.offerAborted e w).withoutSweep e).post (.swAbort e.tag e.vp e.number w.cause)).oq.Sized :=
    hoffer.congr (by simp [State.withoutSweep])
  by_cases hw : w = .discarded
  · unfold State.abortSweep
    rw [State.leave_abort, if_pos hw]
    exact hgone
  · rw [State.abortSweep_eq s e hw]
    exact hgone.congr (by simp)

/-- The traces of a fitting result enter the stack of their sweep (R129). -/
theorem State.WorkLawful.mergeTraces (h : s.WorkLawful) (e : SweepEntry) {ts : List TraceResult}
    (hts : ∀ k ∈ s.stackTable, k.settings.vp = e.vp → ResultFits ts k.settings) :
    (s.updStack e.vp fun k => k.mergeSweep e ts).WorkLawful := by
  have hmem : ∀ k' ∈ (s.updStack e.vp fun k => k.mergeSweep e ts).stackTable, ∃ k ∈ s.stackTable,
      k'.settings = k.settings ∧ ∀ c : Fin 480, k'.accs[c].Lawful k' := by
    intro k' hk'
    obtain ⟨k, hk, rfl⟩ := List.mem_map.mp hk'
    refine ⟨k, hk, ?_⟩
    split
    · rename_i hvp
      exact ⟨rfl, Stack.mergeSweep_accs (h.settings k hk) (h.accumulators k hk) e (hts k hk hvp)⟩
    · exact ⟨rfl, h.accumulators k hk⟩
  have hsettings : (s.updStack e.vp fun k => k.mergeSweep e ts).tableSettings = s.tableSettings :=
    updStack_tableSettings s e.vp (fun k => k.mergeSweep e ts) fun _ => rfl
  refine ⟨?_, ?_, ?_, ?_, h.records⟩
  · intro k' hk'
    obtain ⟨k, hk, hsame, -⟩ := hmem k' hk'
    exact hsame ▸ h.settings k hk
  · intro k' hk'
    obtain ⟨k, hk, -, haccs⟩ := hmem k' hk'
    exact haccs
  · intro x hx k' hk' hvp
    obtain ⟨k, hk, hsame, -⟩ := hmem k' hk'
    rw [hsame] at hvp ⊢
    exact h.ends x hx k hk hvp
  · intro x hx l hlane
    obtain ⟨k, hk, hvp, hparams, hresult⟩ := h.jobs x hx l hlane
    obtain ⟨k', hk', hsame⟩ := kept_of_tableSettings hsettings hk
    exact ⟨k', hk', hsame ▸ hvp, hsame ▸ hparams, hresult⟩

theorem State.WorkLawful.mergeSweep (h : s.WorkLawful) (hlawful : s.LanesLawful) (htags : s.TagsDistinct)
    {e x : SweepEntry} (hx : x ∈ s.sweeps) (hsame : e.Same x) {l : Fin 4} (hlane : e.lane = some l)
    (hxlane : x.lane = some l) {y : Lane} (d : Disposition)
    (hfits : ∀ k ∈ s.stackTable, k.settings.vp = e.vp → ResultFits y.result k.settings) :
    (s.mergeSweep e y d).WorkLawful := by
  have hmerged := h.mergeTraces e hfits
  have hsettings : (s.updStack e.vp fun k => k.mergeSweep e y.result).tableSettings = s.tableSettings :=
    updStack_tableSettings s e.vp (fun k => k.mergeSweep e y.result) fun _ => rfl
  have hsized : ((s.updStack e.vp fun k => k.mergeSweep e y.result).offerSweep e y d e.qc).oq.Sized := by
    refine offerSweep_sized d e.qc hmerged.records fun k hk => ?_
    obtain ⟨hmem, hvp⟩ := State.findStack_eq_some hk
    obtain ⟨k', hk', hkk'⟩ := kept_of_tableSettings hsettings.symm hmem
    rw [← hkk']
    exact hfits k' hk' (hkk'.symm ▸ hvp)
  refine hmerged.leave (t := s.mergeSweep e y d) (hlawful.congr rfl rfl)
    (htags.of_sublist (List.Sublist.refl _) hsettings) hx ?_ ?_ ?_ ?_ ?_
  · rw [State.mergeSweep_sweeps, hsame.tag]
    rfl
  · rw [State.mergeSweep_lanes, hlane, hxlane]
    rfl
  · rw [State.mergeSweep_eq]
    exact (completionTest_stacksFrom _ _).trans (.of_eq (by simp [State.withoutSweep]))
  · rw [mergeSweep_tableSettings, hsettings]
  · rw [State.mergeSweep_eq]
    exact hsized.congr (by simp [State.withoutSweep])

/-- An announced sweep has the window end R57 forms, and no lane (R61). -/
theorem State.WorkLawful.announce (h : s.WorkLawful) (htags : s.TagsDistinct) {a : Announcement} {k : Stack}
    (hfound : s.findStack a.vp = some k) : (announce s a k).WorkLawful := by
  obtain ⟨hk, hvp⟩ := State.findStack_eq_some hfound
  have htable : (Machine.announce s a k).stackTable =
      (s.updStack a.vp fun y => y.setMap a.number (.announced a.tag)).stackTable := by
    rw [announce_eq]
    rfl
  have hstacks : (Machine.announce s a k).StacksFrom s :=
    (State.StacksFrom.of_eq htable).trans (.updStack a.vp (f := fun y => y.setMap a.number (.announced a.tag))
      fun y => ⟨rfl, rfl, rfl⟩)
  have hsettings : (Machine.announce s a k).tableSettings = s.tableSettings :=
    (tableSettings_congr htable).trans (updStack_tableSettings s a.vp (fun y => y.setMap a.number (.announced a.tag))
      fun _ => rfl)
  have hold : State.WorkLawful { Machine.announce s a k with sweeps := s.sweeps } :=
    h.congr hstacks hsettings (by rw [announce_eq]) rfl (by rw [announce_eq]; exact h.records)
  have hsweeps : (Machine.announce s a k).sweeps = s.sweeps ++ [{ newEntry a k with state := newState s (newEntry a k) }] := by
    rw [announce_eq]
  refine ⟨hold.settings, hold.accumulators, ?_, ?_, hold.records⟩
  · intro e he x hx hxvp
    rw [hsweeps] at he
    obtain he | he := List.mem_append.mp he
    · exact hold.ends e he x hx hxvp
    · rw [List.mem_singleton.mp he] at hxvp ⊢
      obtain ⟨y, hy, hxy⟩ := hstacks x hx
      rw [hxy.settings] at hxvp ⊢
      rw [eq_of_vp_eq htags.vps hk hy (hxvp.trans hvp.symm)]
      rfl
  · intro e he l hlane
    rw [hsweeps] at he
    obtain he | he := List.mem_append.mp he
    · exact hold.jobs e he l hlane
    · rw [List.mem_singleton.mp he] at hlane
      cases hlane

/-- A lane's job for an entry that comes to it or stays in it, the other lanes and entries being kept. -/
theorem State.WorkLawful.move (h : s.WorkLawful) {e : SweepEntry} {l : Fin 4} {x : Lane} {f : SweepEntry → SweepEntry}
    (hf : (f e).Same e ∧ (f e).lane = some l) {k : Stack} (hk : k ∈ s.stackTable) (hvp : k.settings.vp = e.vp)
    (hparams : x.params = some (jobParams e k.settings)) (hresult : (f e).state = .qcWait → x.result = x.jobResult)
    (halone : ∀ y ∈ s.sweeps, y.lane = some l → y = e) (htags : s.TagsDistinct) (he : e ∈ s.sweeps)
    (htable : t.stackTable = s.stackTable) (hlanes : t.lanes = s.lanes.set l x)
    (hsweeps : t.sweeps = s.sweeps.map fun y => if y.tag = e.tag then f y else y) (hrecords : t.oq.records = s.oq.records) :
    t.WorkLawful := by
  obtain ⟨hsame, hlane⟩ := hf
  refine h.of_parts (.of_eq htable) (fun k hk _ => kept_of_tableSettings (tableSettings_congr htable) hk) (fun y hy => ?_)
    fun r hr => h.records r (hrecords ▸ hr)
  rw [hsweeps] at hy
  obtain ⟨z, hz, rfl⟩ := List.mem_map.mp hy
  split
  · rename_i htag
    rw [eq_of_tag_eq htags.tags hz he htag]
    refine ⟨e, he, hsame, fun m hm => .inl ?_⟩
    obtain rfl : l = m := Option.some.inj (hlane.symm.trans hm)
    refine ⟨k, htable ▸ hk, hvp.trans hsame.vp.symm, ?_, ?_⟩
    · rw [hlanes, table_set_same, hsame.jobParams]
      exact hparams
    · rw [hlanes, table_set_same]
      exact hresult
  · rename_i htag
    refine ⟨z, hz, .refl z, fun m hm => .inr ⟨hm, ?_, id⟩⟩
    rw [hlanes, table_set_other]
    rintro rfl
    exact htag (congrArg _ (halone z hz hm))

theorem workLawful_of_empty (hsweeps : s.sweeps = []) (htable : s.stackTable = []) (hrecords : s.oq.records = []) :
    s.WorkLawful := by
  refine ⟨?_, ?_, ?_, ?_, ?_⟩ <;> simp [hsweeps, htable, hrecords]

theorem Change.workLawful (h : Change True s t) (htags : s.TagsDistinct) (hlawful : s.LanesLawful) (hs : s.WorkLawful) :
    t.WorkLawful := by
  cases h with
  | readied =>
    exact hs.map (t := s.readinessAll) (.of_eq rfl) rfl rfl (g := fun e => { e with state := readiness s.ports e }) rfl
      (fun e => ⟨⟨rfl, rfl, rfl, rfl, rfl, rfl, rfl⟩, rfl, (readiness_qcWait s.ports e).mp⟩) hs.records
  | announced p a k _ hcheck => exact hs.announce htags (announceCheck_eq_ok hcheck).2.2.1
  | aborted e w he _ => exact hs.abortSweep hlawful htags (he trivial) w
  | granted e k l r clips he _ hidle hk =>
    obtain ⟨hmem, hvp⟩ := State.findStack_eq_some hk
    refine hs.move (f := (·.grantedTo l)) ⟨⟨rfl, rfl, rfl, rfl, rfl, rfl, rfl⟩, rfl⟩ hmem hvp rfl nofun (fun y hy hyl => ?_)
      htags he rfl rfl rfl rfl
    have hheld := (hlawful.of_lane_some hy hyl).1
    rw [hlawful.held_of_idle hidle] at hheld
    cases hheld
  | waits e l limit he _ hheld _ =>
    have hlane := hlawful.lane_of_held htags he hheld
    obtain ⟨k, hk, hvp, hparams, -⟩ := hs.jobs e he l hlane
    exact hs.move (x := { s.lanes[l] with state := .qcWait, result := s.lanes[l].jobResult })
      (f := fun x => { x with state := .qcWait, qcTimer := some limit })
      ⟨⟨rfl, rfl, rfl, rfl, rfl, rfl, rfl⟩, hlane⟩ hk hvp hparams (fun _ => rfl)
      (fun y hy hyl => hlawful.eq_of_lane htags hy he hyl hlane) htags he rfl rfl rfl rfl
  | merged e x l y d hx hsame hlane hheld =>
    have hxlane := hlawful.lane_of_merged htags hx hheld
    refine hs.mergeSweep hlawful htags hx hsame hlane hxlane d fun k hk hvp => ?_
    obtain ⟨hfits, hresult⟩ := hs.fits_of_lane htags hx hxlane hk (hvp.trans hsame.vp)
    obtain ⟨-, -, hy⟩ | ⟨hwaits, -, hy⟩ := hheld
    · rw [hy]
      exact hfits
    · rw [hy, hresult hwaits]
      exact hfits
  | stored e r _ _ _ =>
    refine hs.map (t := s.updSweep e.tag fun x => { x with qc := some r }) (.of_eq rfl) rfl rfl
      (g := fun x => if x.tag = e.tag then { x with qc := some r } else x) rfl (fun x => ?_) hs.records
    split
    · exact ⟨⟨rfl, rfl, rfl, rfl, rfl, rfl, rfl⟩, rfl, id⟩
    · exact ⟨.refl x, rfl, id⟩
  | released r rest hrecords =>
    refine hs.congr (serve_stacksFrom _) (serve_tableSettings _) (by simp) (by simp) fun x hx => hs.records x ?_
    rw [State.serve_records] at hx
    rw [hrecords]
    exact List.mem_cons_of_mem _ hx
  | closed vp k _ _ =>
    refine hs.congr ((completionTest_stacksFrom _ _).trans (.updStack vp (f := fun k => { k with state := .closing })
      fun k => ⟨rfl, rfl, rfl⟩)) ?_ (by simp) (by simp) (by
        rw [OutputQueue.Sized, State.completionTest_records]
        exact hs.records)
    exact (completionTest_tableSettings _ vp).trans (updStack_tableSettings s vp _ fun _ => rfl)
  | engineReset => exact workLawful_of_empty rfl rfl rfl
  | _ => exact hs.same rfl rfl rfl rfl

/-! ### Stacks that join and leave -/

theorem State.WorkLawful.openStack (h : s.WorkLawful) (hmaps : s.MapsLawful) {k : StackSettings} (hk : k.Lawful)
    (hnew : ∀ x ∈ s.stackTable, x.settings.vp ≠ k.vp) :
    State.WorkLawful { s with stackTable := s.stackTable ++ [Stack.new k] } := by
  have hmem : ∀ x, x ∈ s.stackTable ++ [Stack.new k] ↔ x ∈ s.stackTable ∨ x = Stack.new k := by simp
  refine ⟨?_, ?_, ?_, ?_, h.records⟩
  · intro x hx
    obtain hx | rfl := (hmem x).mp hx
    · exact h.settings x hx
    · exact hk
  · intro x hx c
    obtain hx | rfl := (hmem x).mp hx
    · exact h.accumulators x hx c
    · have hinitial : (Stack.new k).accs[c] = Accumulators.initial k := by simp [Stack.new]
      rw [hinitial]
      refine ⟨List.length_replicate, List.length_replicate, Nat.zero_le _, ?_, ?_, Nat.zero_le _⟩
      · intro n hn
        rw [List.eq_of_mem_replicate hn]
        exact Nat.zero_le _
      · intro d hd
        rw [List.eq_of_mem_replicate hd]
        simp [Accumulators.initial]
  · intro e he x hx hvp
    obtain hx | rfl := (hmem x).mp hx
    · exact h.ends e he x hx hvp
    · obtain ⟨-, y, hy, hyvp, -⟩ := hmaps.listed e he
      exact absurd (hyvp.trans hvp.symm) (hnew y hy)
  · intro e he l hlane
    obtain ⟨x, hx, hvp, hjob⟩ := h.jobs e he l hlane
    exact ⟨x, (hmem x).mpr (.inl hx), hvp, hjob⟩

/-- A stack leaves the table with its sweeps. -/
theorem State.WorkLawful.drop (h : s.WorkLawful) (vp : Nat) (hstacks : t.StacksFrom s)
    (hsettings : t.tableSettings = (s.dropStack vp).tableSettings)
    (hsweeps : ∀ e ∈ t.sweeps, e ∈ s.sweeps ∧ e.vp ≠ vp) (hlanes : t.lanes = s.lanes) (hrecords : t.oq.Sized) :
    t.WorkLawful := by
  refine h.of_parts hstacks (fun k hk hlisted => ?_)
    (fun e he => ⟨e, (hsweeps e he).1, .refl e, fun l hl => .inr ⟨hl, by rw [hlanes], id⟩⟩) hrecords
  obtain ⟨e, he, hvp⟩ := hlisted
  refine kept_of_tableSettings hsettings (k := k) ?_
  rw [State.dropStack_stackTable, List.mem_filter]
  exact ⟨hk, by simpa [hvp] using (hsweeps e he).2⟩

/-- A HELD or FINALIZING stack has no listed sweep (R118). -/
theorem State.MapsLawful.unlisted (h : s.MapsLawful) (htags : s.TagsDistinct) {k : Stack} (hk : k ∈ s.stackTable)
    (hstate : k.state = .held ∨ k.state = .finalizing) : ∀ e ∈ s.sweeps, e ∈ s.sweeps ∧ e.vp ≠ k.settings.vp := by
  refine fun e he => ⟨he, fun hvp => ?_⟩
  have hplace := h.agree.state_of_listed htags hk he hvp
  obtain hstate | hstate := hstate <;> simp [hstate] at hplace

theorem State.WorkLawful.discardStack (h : s.WorkLawful) (hmaps : s.MapsLawful) (hlawful : s.LanesLawful)
    (htags : s.TagsDistinct) {k : Stack} (hk : k ∈ s.stackTable) : (s.discardStack k).WorkLawful := by
  obtain ⟨hstate, hcase⟩ | ⟨hstate, -, hcase⟩ | ⟨hstate, -, hcase⟩ | ⟨hstate, hcase⟩ := s.discardStack_cases k
  · have hdiscard : (s.discardSweeps k.settings.vp).LanesLawful ∧ (s.discardSweeps k.settings.vp).WorkLawful :=
      discardSweeps_keeps (L := fun s => s.LanesLawful ∧ s.WorkLawful)
        (fun s e htags he hs => ⟨hs.1.leave htags he (by simp) (by simp), hs.2.abortSweep hs.1 htags he .discarded⟩) _ htags
        ⟨hlawful, h⟩
    rw [hcase]
    refine hdiscard.2.drop k.settings.vp (.of_sublist List.filter_sublist) rfl (fun e he => ?_) rfl hdiscard.2.records
    exact ⟨he, ((mem_discardSweeps htags k.settings.vp e).mp he).2⟩
  · rw [hcase]
    refine h.drop k.settings.vp ((serve_stacksFrom _).trans (.of_sublist List.filter_sublist)) (serve_tableSettings _)
      (fun e he => ?_) (by simp) ?_
    · simpa using hmaps.unlisted htags hk (.inl hstate) e (by simpa using he)
    · exact fun r hr => h.records r (by rw [State.serve_records] at hr; exact hr)
  · rw [hcase]
    exact h.drop k.settings.vp (.of_sublist List.filter_sublist) rfl (hmaps.unlisted htags hk (.inl hstate)) rfl h.records
  · rw [hcase]
    refine h.drop k.settings.vp ((serve_stacksFrom _).trans (.of_sublist List.filter_sublist)) (serve_tableSettings _)
      (fun e he => ?_) (by simp) ?_
    · simpa using hmaps.unlisted htags hk (.inr hstate) e (by simpa using he)
    · exact fun r hr => h.records r (by rw [State.serve_records] at hr; exact hr)

theorem State.WorkLawful.finalize (h : s.WorkLawful) (hmaps : s.MapsLawful) (htags : s.TagsDistinct) {k : Stack}
    (hk : k ∈ s.stackTable) (hstate : k.state = .finalizing) : (s.finalize k).WorkLawful := by
  have htable := finalize_stackTable s k
  refine h.drop k.settings.vp (.of_sublist (htable ▸ List.filter_sublist)) (tableSettings_congr htable)
    (by rw [State.finalize_sweeps]; exact hmaps.unlisted htags hk (.inr hstate)) (by simp [State.finalize]) ?_
  rw [State.finalize_oq]
  intro r hr
  obtain hr | hr := List.mem_append.mp hr
  · exact h.records r hr
  · rw [List.mem_singleton.mp hr]
    exact stackContent_length _ s.interval s.channels (h.accumulators k hk)

theorem TableChange.workLawful (h : TableChange s t) (htags : s.TagsDistinct) (hmaps : s.MapsLawful)
    (hlawful : s.LanesLawful) (hs : s.WorkLawful) : t.WorkLawful := by
  cases h with
  | opened p k hread _ hnew =>
    refine hs.openStack hmaps (readStackSettings_lawful hread) fun x hx heq => ?_
    simpa [heq] using List.find?_eq_none.mp hnew x hx
  | discarded vp k hk => exact hs.discardStack hmaps hlawful htags (State.findStack_eq_some hk).1
  | finalized vp k hk hstate => exact hs.finalize hmaps htags (State.findStack_eq_some hk).1 hstate

theorem Changes.workLawful (h : Changes True s t) (hs : s.TagsDistinct ∧ s.LanesLawful ∧ s.WorkLawful) :
    t.TagsDistinct ∧ t.LanesLawful ∧ t.WorkLawful := by
  induction h with
  | refl => exact hs
  | tail _ hlast ih =>
    obtain ⟨htags, hlawful, hwork⟩ := ih
    exact ⟨hlast.tagsDistinct htags, hlast.lanesLawful htags hlawful, hlast.workLawful htags hlawful hwork⟩

/-- Settles O55: a lane fixes its parameters with its entry, so what merges and what is recorded fits its stack. -/
theorem everyStepKeepsTheWorkLaw : Obligations.EveryStepKeepsTheWorkLaw := by
  unfold Obligations.EveryStepKeepsTheWorkLaw
  intro s t htags hlawful hmaps hwork hstep
  obtain (hrun | ⟨c, pending, v, hc, hv, hrun⟩) | ⟨u, straps, rfl⟩ | ⟨u, -, rfl⟩ :=
    step_ends (D := True) s t (fun _ => htags.tags) hstep
  · exact (Changes.workLawful hrun ⟨htags, hlawful, hwork⟩).2.2
  · have htags' : State.TagsDistinct { s with cmd := c, pending := pending } := ⟨htags.tags, htags.vps⟩
    have hlawful' : State.LanesLawful { s with cmd := c, pending := pending } := hlawful.congr rfl rfl
    have hmaps' : State.MapsLawful { s with cmd := c, pending := pending } := hmaps.congr rfl rfl
    have hwork' : State.WorkLawful { s with cmd := c, pending := pending } := hwork.same rfl rfl rfl rfl
    exact (Changes.workLawful hrun ⟨hv.tagsDistinct htags', hv.lanesLawful htags' hlawful',
      hv.workLawful htags' hmaps' hlawful' hwork'⟩).2.2
  · exact workLawful_of_empty rfl rfl rfl
  · exact workLawful_of_empty rfl rfl rfl

/-- Settles O56: a stack merges at most its expected number of sweeps, and each adds less than 2^31. -/
theorem accumulatorsNeverOverflow : Obligations.AccumulatorsNeverOverflow := by
  unfold Obligations.AccumulatorsNeverOverflow
  intro s k c hmaps hwork hk
  have hlaw := hwork.accumulators k hk c
  have hcount : k.accs[c].mergeCount ≤ 32 := by
    have hmerges := hlaw.merges
    have hexpected := (hwork.settings k hk).expected.2
    have hle := (hmaps.counts k hk).le
    omega
  refine ⟨hcount, fun n hn => ?_, fun d hd => ?_, fun hpos d hd => ?_, fun hzero => ⟨fun n hn => ?_, fun d hd => ?_⟩⟩
  · have hsum := hlaw.sums n hn
    rw [Int.abs_eq_natAbs]
    omega
  · have hweight := hlaw.weights d hd
    omega
  · have hweight := hlaw.weights d hd
    omega
  · have hsum := hlaw.sums n hn
    omega
  · have hweight := hlaw.weights d hd
    omega

end

end Sys2Proof.Machine
end

section
/-! The part at power-on and at reset, and the law of present samples (R10, R174, R179 to R183). -/

namespace Sys2Proof.Machine

/-! ### Steps and resets -/

/-- Settles O1: the two cases of a step. -/
theorem stepRunsTheFrontCommand : Obligations.StepRunsTheFrontCommand := by
  unfold Obligations.StepRunsTheFrontCommand
  refine ⟨fun c rest s => rfl, fun s hpending => ?_⟩
  unfold step
  rw [hpending]

@[simp] theorem State.reset_channel (c : Fin 480) : State.reset.channels[c] = ChannelEntry.reset := by
  simp [State.reset]

@[simp] theorem State.reset_port (p : Fin 4) : State.reset.ports[p] = Port.reset := by
  simp [State.reset]

@[simp] theorem State.reset_slot (i : Fin 8) : State.reset.slots[i] = RefSlot.reset := by
  simp [State.reset]

@[simp] theorem State.reset_lane (l : Fin 4) : State.reset.lanes[l] = Lane.reset := by
  simp [State.reset]

/-- The unit address the straps give, by their bits (R166). -/
theorem strapAddress_eq (straps : BitVec 6) :
    strapAddress straps = if straps = 0#6 ∨ straps = 63#6 then none else some straps.toNat := by
  have hzero : straps.toNat = 0 ↔ straps = 0#6 := BitVec.toNat_inj (y := 0#6)
  have hfull : straps.toNat = 63 ↔ straps = 63#6 := BitVec.toNat_inj (y := 63#6)
  simp only [strapAddress, hzero, hfull]

/-- Settles O2: the power-on state is the reset state with the straps' address. -/
theorem powerOnResetSetsEveryBlock : Obligations.PowerOnResetSetsEveryBlock := by
  unfold Obligations.PowerOnResetSetsEveryBlock
  intro straps s
  refine ⟨s.powerOn straps, rfl, State.reset_channel, rfl, fun p => ?_, State.reset_slot, rfl, State.reset_lane, rfl, rfl, rfl,
    rfl, ?_, rfl⟩
  · have hport : (s.powerOn straps).ports[p] = Port.reset := State.reset_port p
    rw [hport]
    rfl
  · rw [← strapAddress_eq]
    rfl

/-- Settles O3: both events change the command port alone. -/
theorem intervalEndAndAnswerCompletion : Obligations.IntervalEndAndAnswerCompletion := by
  unfold Obligations.IntervalEndAndAnswerCompletion
  refine ⟨fun s hinterval => ?_, fun s a hsending => ?_⟩
  · show execInitIntervalEnd s = _
    rw [execInitIntervalEnd, if_pos hinterval]
    rfl
  · show execAnswerCompletion s = _
    rw [execAnswerCompletion, State.answerEnd, hsending]

/-- A full reset is the reset state with the unit address, the record number counter and the queue of commands kept (R179). -/
theorem State.fullReset_eq (s : State) : s.fullReset =
    { State.reset with
      oq := { State.reset.oq with nextNumber := s.oq.nextNumber }
      cmd := { State.reset.cmd with unitAddress := s.cmd.unitAddress }, pending := s.pending } := rfl

/-- Settles O5: an addressed RSTFULL marks its answer, and a marked answer's completion and a broadcast one reset. -/
theorem fullResetAtOnceOrAfterTheAnswer : Obligations.FullResetAtOnceOrAfterTheAnswer := by
  unfold Obligations.FullResetAtOnceOrAfterTheAnswer
  refine ⟨fun s htaking => ?_, fun s htaking => ?_, fun s a hsending => ?_⟩
  · exact congrArg _ (State.take_fits htaking rfl)
  · exact congrArg _ (State.take_fits htaking rfl)
  · show execAnswerCompletion s = _
    rw [execAnswerCompletion, State.answerEnd, hsending]
    rfl

/-- What an engine reset makes of a slot (R55). -/
theorem RefSlot.engineReset_eq (x : RefSlot) :
    x.engineReset = if x.state = .ready then { x with useCount := 0 } else RefSlot.reset := by
  unfold RefSlot.engineReset
  cases x.state <;> rfl

/-- Settles O6: the taking answers the engine-reset state. -/
theorem engineResetKeepsConfigurationPortsAndRing : Obligations.EngineResetKeepsConfigurationPortsAndRing := by
  unfold Obligations.EngineResetKeepsConfigurationPortsAndRing
  intro s ak htaking
  have htake : s.take { kind := 29#8, payload := [], ak := ak } rstengOwner =
      { s.engineReset with
        cmd := CommandPort.taken { s.cmd with selection := .deselected, assembly := [], inputQueue := [] }
          { kind := 29#8, payload := [], ak := ak } .ok [] } := by
    rw [State.take_fits htaking rfl]
    exact State.conclude_ok rfl rfl rfl
  refine ⟨_, congrArg Host.Outcome.next htake, rfl, rfl, rfl, rfl, rfl, rfl, rfl, fun l => ?_, fun i => ?_, rfl, rfl, rfl⟩
  · simp [State.engineReset]
  · exact (mapTable_get _ _ _).trans (s.slots[i].engineReset_eq)

/-! ### The laws at reset -/

/-- Settles O17, law by law: there is nothing in the reset state for a law to fail of. -/
theorem resetIsLawful : Obligations.ResetIsLawful := by
  unfold Obligations.ResetIsLawful
  exact {
    bounded := ⟨Nat.zero_le _, nofun, Nat.zero_le _, Nat.zero_le _, Nat.zero_le _⟩
    rings := fun p => by rw [State.reset_port]; exact Port.reset_ringLaw
    ports := fun p => by rw [State.reset_port]; exact Port.reset_stateLaw
    rests := fun _ => AtRest_of_reset rfl rfl rfl rfl rfl _ rfl
    tags := ⟨List.nodup_nil, List.nodup_nil⟩
    slots := slotsLawful_of_reset rfl rfl
    lanes := lanesLawful_of_reset State.reset_lane rfl
    maps := mapsLawful_of_empty rfl rfl
    output := outputLawful_of_empty rfl rfl rfl rfl
    numbers := numbered_of_empty rfl (le_refl 1) (show 1 ≤ Config.recordLimit by decide)
    work := workLawful_of_empty rfl rfl rfl }

/-! ### Present samples -/

/-- A present sample stands in a listed cell of its index (R10). -/
theorem ringSample_eq_some {r : Ring} {slot i : Nat} {d : Sample} (hr : ringWf r = true)
    (h : ringSample r slot i = some d) : ∃ x, (ringPosition i, x) ∈ r ∧ x.tag = i := by
  unfold ringSample at h
  split at h
  · rename_i x hread
    split_ifs at h with htag
    exact ⟨x, (ringRead_eq_some ((ringWf_iff r).mp hr).1).mp hread, htag⟩
  · cases h

/-- Settles O18: the cell of a present sample lies within one ring of the front. -/
theorem presentSamplesLieWithinOneRingOfTheFront : Obligations.PresentSamplesLieWithinOneRingOfTheFront := by
  unfold Obligations.PresentSamplesLieWithinOneRingOfTheFront
  intro s c i d hrings hsample
  have hlaw := hrings (channelPort c)
  obtain ⟨x, hx, rfl⟩ := ringSample_eq_some hlaw.form hsample
  exact hlaw.behind _ hx

end Sys2Proof.Machine
end

section
/-! The command line and the notices (R165 to R171, R185 to R191). -/

namespace Sys2Proof.Machine

/-! ### Characters and frames -/

theorem State.marked_eq (s : State) (v : Byte) : s.marked v =
    if s.cmd.unitAddress = some v.toNat then { s with cmd := { s.cmd with selection := .selectedOwn, assembly := [] } }
    else if v = 63#8 then { s with cmd := { s.cmd with selection := .selectedAll, assembly := [] } }
    else { s with cmd := { s.cmd with selection := .deselected, assembly := [] } } := by
  have hall : v.toNat = 63 ↔ v = 63#8 := BitVec.toNat_inj (y := 63#8)
  simp only [State.marked, State.deselect, hall]

/-- An unmarked character heard by a selected part joins its frame (R168). -/
theorem State.unmarked_selected {s : State} (b : Byte) (hinterval : s.cmd.initInterval = false)
    (hselected : s.cmd.selection ≠ .deselected) : ∃ ak, s.unmarked b = s.assemble (s.cmd.assembly ++ [b]) ak := by
  unfold State.unmarked
  rw [if_neg (by simp [hinterval])]
  cases hs : s.cmd.selection with
  | deselected => exact absurd hs hselected
  | selectedOwn => exact ⟨.addressed, rfl⟩
  | selectedAll => exact ⟨.broadcast, rfl⟩

theorem lengthInconsistent_iff (n : Nat) : lengthInconsistent n = true ↔ n = 0 ∨ 1025 < n := by
  simp [lengthInconsistent, Config.lengthLimit]

/-- Settles O57: the selection and the frame under assembly, character by character. -/
theorem charactersSelectAndDeselect : Obligations.CharactersSelectAndDeselect := by
  unfold Obligations.CharactersSelectAndDeselect
  intro s hinterval selected
  have hoff : ¬ s.cmd.initInterval = true := by simp [hinterval]
  refine ⟨fun v => ?_, congrArg Host.Outcome.next (if_neg hoff), fun lo hi hlength => ⟨fun hdeselected => ?_, fun hselected hempty => ?_⟩⟩
  · have hexec : exec (.addressCharacter v) s = .next (s.marked v) := congrArg Host.Outcome.next (if_neg hoff)
    rw [hexec, State.marked_eq]
    refine ⟨fun hown => ?_, fun hother hall => ?_, fun hother hnone => ?_⟩
    · rw [if_pos hown]
    · rw [if_neg hother, if_pos hall]
    · rw [if_neg hother, if_neg hnone]
  · exact congrArg Host.Outcome.next (unmarkedRun_deselected _ s hinterval hdeselected)
  · obtain ⟨ak, hfirst⟩ := s.unmarked_selected lo hinterval hselected
    rw [hempty] at hfirst
    have hone : s.unmarked lo = { s with cmd := { s.cmd with assembly := [lo] } } := hfirst
    obtain ⟨ak', hsecond⟩ := State.unmarked_selected (s := { s with cmd := { s.cmd with assembly := [lo] } }) hi hinterval
      hselected
    have hbad : lengthInconsistent (field [lo, hi] 0 2) = true := by
      rw [field_length, lengthInconsistent_iff]
      exact hlength
    have htwo : State.assemble { s with cmd := { s.cmd with assembly := [lo] } } [lo, hi] ak' = selected .deselected := by
      unfold State.assemble
      rw [if_neg (by simp), if_pos hbad]
      rfl
    show Host.Outcome.next ((s.unmarked lo).unmarked hi) = _
    rw [hone, hsecond]
    exact congrArg Host.Outcome.next htwo

/-- The characters of a whole frame end in the frame's disposition (R168, R170). -/
theorem exec_requestFrame {s : State} {chars : List Byte} {ak : AddressKind} (hinterval : s.cmd.initInterval = false)
    (hempty : s.cmd.assembly = [])
    (hselection : s.cmd.selection = (match ak with | .addressed => .selectedOwn | .broadcast => .selectedAll))
    (hwhole : wholeFrame chars = true) : exec (.requestFrame chars) s = .next (s.deselect.dispose chars ak) := by
  match chars, hwhole with
  | lo :: hi :: rest, hwhole =>
    simp only [wholeFrame, Bool.and_eq_true, Bool.not_eq_true', beq_iff_eq] at hwhole
    obtain ⟨hconsistent, hlength⟩ := hwhole
    have hcount : lengthCount lo hi = lo.toNat + 256 * hi.toNat := by
      rw [lengthCount]
    rw [hcount] at hconsistent hlength
    have hsame : ({ s with cmd := { s.cmd with assembly := [] } } : State) = s := by
      rw [← hempty]
    have hrun := unmarkedRun_frame lo hi ak s hinterval hconsistent hselection (lo :: hi :: rest) [] (by simp) (by simp)
      ⟨rest, rfl⟩ (by simp; omega)
    rw [hsame] at hrun
    exact congrArg Host.Outcome.next hrun

theorem field_requestChars {kind : Byte} {payload : List Byte} (h : payload.length ≤ 1024) :
    field (requestChars kind payload) 0 2 = 1 + payload.length := by
  simp only [requestChars, List.append_assoc]
  exact field_leBytes (by omega)

/-- The characters of a request frame carry its request (R168). -/
theorem frameRequest_requestChars {kind : Byte} {payload : List Byte} (ak : AddressKind) (h : payload.length ≤ 1024) :
    frameRequest (requestChars kind payload) ak = { kind := kind, payload := payload, ak := ak } := by
  unfold frameRequest
  rw [field_requestChars h]
  simp [requestChars, leBytes]

theorem wholeFrame_requestChars {kind : Byte} {payload : List Byte} (h : payload.length ≤ 1024) :
    wholeFrame (requestChars kind payload) = true := by
  have hfield := field_requestChars (kind := kind) h
  simp only [requestChars, leBytes, List.cons_append, List.nil_append] at hfield ⊢
  rw [field_length] at hfield
  simp only [wholeFrame, lengthCount, hfield, lengthInconsistent, Config.lengthLimit]
  simp [checkBytes]
  omega

theorem mustAnswer_iff (kind : Byte) :
    mustAnswer kind = true ↔ kind ∈ [3#8, 16#8, 22#8, 23#8, 24#8, 26#8, 27#8, 30#8] := by
  simp [mustAnswer, ← BitVec.toNat_inj]

/-- Settles O58: the disposition of a whole frame, case by case in the order of R170. -/
theorem framesAreDisposedOfInOrder : Obligations.FramesAreDisposedOfInOrder := by
  unfold Obligations.FramesAreDisposedOfInOrder
  intro s hinterval heard
  refine ⟨fun chars hdeselected => ?_, fun chars hselected hempty hwhole hbad => ?_,
    fun kind payload ak hfits hempty hselection => ?_⟩
  · exact congrArg Host.Outcome.next (unmarkedRun_deselected chars s hinterval hdeselected)
  · obtain ⟨ak, hselection⟩ : ∃ ak : AddressKind,
        s.cmd.selection = (match ak with | .addressed => .selectedOwn | .broadcast => .selectedAll) := by
      cases hs : s.cmd.selection with
      | deselected => exact absurd hs hselected
      | selectedOwn => exact ⟨.addressed, rfl⟩
      | selectedAll => exact ⟨.broadcast, rfl⟩
    rw [exec_requestFrame hinterval hempty hselection hwhole]
    exact congrArg Host.Outcome.next (if_pos hbad)
  · intro ev mute
    have hev : ev = .next (if mute then heard.post (.cmdBadCast kind none)
        else if 4 ≤ s.cmd.inputQueue.length then heard.post (.cmdOvr kind ak)
        else heard.enqueue { kind := kind, payload := payload, ak := ak }) := by
      have hgood : ¬ checkGood (requestChars kind payload) = false := by
        rw [requestChars, checkGood_append]
        exact nofun
      show exec (.requestFrame (requestChars kind payload)) s = _
      rw [exec_requestFrame hinterval hempty hselection (wholeFrame_requestChars hfits)]
      unfold State.dispose
      rw [if_neg hgood, frameRequest_requestChars ak hfits]
      simp only [mustAnswer_iff, mute]
      rfl
    refine ⟨fun hmute => ?_, fun hmute hfull => ?_, fun hmute hroom => ?_⟩
    · rw [hev, if_pos hmute]
    · rw [hev, if_neg hmute, if_pos hfull]
    · rw [hev, if_neg hmute, if_neg (by omega)]
      rfl

/-! ### The stamp of a notice -/

theorem maxFront_eq_some {a b : Option Nat} {m : Nat} :
    maxFront a b = some m ↔ (a = some m ∨ b = some m) ∧ (∀ x, a = some x → x ≤ m) ∧ ∀ x, b = some x → x ≤ m := by
  cases a with
  | none =>
    cases b with
    | none => simp [maxFront]
    | some b => simp [maxFront]; omega
  | some a =>
    cases b with
    | none => simp [maxFront]; omega
    | some b => simp [maxFront]; omega

theorem maxFront_le {a b : Option Nat} {m : Nat} :
    (∀ x, maxFront a b = some x → x ≤ m) ↔ (∀ x, a = some x → x ≤ m) ∧ ∀ x, b = some x → x ≤ m := by
  cases a <;> cases b <;> simp [maxFront]

theorem maxFront_eq_none {a b : Option Nat} : maxFront a b = none ↔ a = none ∧ b = none := by
  cases a <;> cases b <;> simp [maxFront]

theorem forall_port {P : Fin 4 → Prop} : (∀ p, P p) ↔ P 0 ∧ P 1 ∧ P 2 ∧ P 3 := by
  simp [Fin.forall_fin_succ]

theorem exists_port {P : Fin 4 → Prop} : (∃ p, P p) ↔ P 0 ∨ P 1 ∨ P 2 ∨ P 3 := by
  simp [Fin.exists_fin_succ]

/-- The spread front is the highest of the fronts (R9). -/
theorem State.spreadFront_eq_some {s : State} {m : Nat} : s.spreadFront = some m ↔
    (∃ p : Fin 4, s.ports[p].front = some m) ∧ ∀ (p : Fin 4) (f : Nat), s.ports[p].front = some f → f ≤ m := by
  rw [exists_port, forall_port]
  show maxFront (maxFront s.ports[(0 : Fin 4)].front s.ports[(1 : Fin 4)].front)
    (maxFront s.ports[(2 : Fin 4)].front s.ports[(3 : Fin 4)].front) = some m ↔ _
  generalize s.ports[(0 : Fin 4)].front = a
  generalize s.ports[(1 : Fin 4)].front = b
  generalize s.ports[(2 : Fin 4)].front = c
  generalize s.ports[(3 : Fin 4)].front = d
  rw [maxFront_eq_some, maxFront_le, maxFront_le, maxFront_eq_some, maxFront_eq_some]
  tauto

theorem State.spreadFront_eq_none {s : State} : s.spreadFront = none ↔ ∀ p : Fin 4, s.ports[p].front = none := by
  rw [forall_port]
  show maxFront (maxFront s.ports[(0 : Fin 4)].front s.ports[(1 : Fin 4)].front)
    (maxFront s.ports[(2 : Fin 4)].front s.ports[(3 : Fin 4)].front) = none ↔ _
  rw [maxFront_eq_none, maxFront_eq_none, maxFront_eq_none, and_assoc]

theorem countP_unmasked (l : List Notice) (mask : BitVec 7) :
    (l.filter fun n => !masked mask n.body.noticeClass).length =
      l.countP fun n => !mask.getLsbD (codeOf noticeClassList n.body.noticeClass) := by
  rw [List.countP_eq_length_filter]
  rfl

theorem maskAnswer_eq (q : NoticeQueue) : maskAnswer q =
    [q.mask.setWidth 8, byteOf (q.notices.countP fun n => !q.mask.getLsbD (codeOf noticeClassList n.body.noticeClass))] := by
  have hmask : byteOf q.mask.toNat = q.mask.setWidth 8 := BitVec.eq_of_toNat_eq (by simp [byteOf])
  rw [maskAnswer, NoticeQueue.unmasked, countP_unmasked, hmask]

theorem stamp_eq {s : State} {stamp : Nat} (h : ((∀ p : Fin 4, s.ports[p].front = none) ∧ stamp = 0) ∨
    ((∃ p : Fin 4, s.ports[p].front = some stamp) ∧ ∀ (p : Fin 4) (f : Nat), s.ports[p].front = some f → f ≤ stamp)) :
    s.stamp = stamp := by
  obtain ⟨hnone, rfl⟩ | hsome := h
  · rw [State.stamp, State.spreadFront_eq_none.mpr hnone]
    rfl
  · rw [State.stamp, State.spreadFront_eq_some.mpr hsome]
    rfl

/-- Settles O59: posting, reading, masking and the attention line. -/
theorem noticesArePostedReadAndMasked : Obligations.NoticesArePostedReadAndMasked := by
  unfold Obligations.NoticesArePostedReadAndMasked
  refine ⟨?posted, ?read, ?masked, fun s => ?attention⟩
  case posted =>
    intro s b stamp hstamp
    rw [← stamp_eq hstamp]
    exact ⟨fun hroom => if_pos hroom, fun hfull => if_neg (Nat.not_lt.mpr hfull)⟩
  case read =>
    intro s htaking flag answered
    have htake : exec (.ntread []) s = .next (State.conclude { kind := 30#8, payload := [], ak := .addressed }
        (ntreadOwner s.dequeue)) := congrArg Host.Outcome.next (State.take_fits htaking rfl)
    refine ⟨fun hempty => ?_, fun n rest hnotices => ?_⟩
    · rw [htake, ntreadOwner, noticeAnswer, State.dequeue_nq, hempty]
      rfl
    · rw [htake, ntreadOwner, noticeAnswer, State.dequeue_nq, hnotices]
      rfl
  case masked =>
    intro s ak m htaking asked counted
    have hfield : field [m] 0 1 = m.toNat := leNat_singleton m
    have htake : exec (.ntmask ak [m]) s = .next (State.conclude asked (ntmaskOwner [m] s.dequeue)) :=
      congrArg Host.Outcome.next (State.take_fits htaking rfl)
    rw [htake]
    refine ⟨fun hlow => congrArg Host.Outcome.next ?_, fun hhigh => congrArg Host.Outcome.next ?_⟩
    · have hmask : BitVec.ofNat 7 m.toNat = m.setWidth 7 := BitVec.eq_of_toNat_eq (by simp)
      have hback : (m.setWidth 7).setWidth 8 = m := BitVec.eq_of_toNat_eq (by simp; omega)
      have howner : ntmaskOwner [m] s.dequeue = {
          state := { s.dequeue with nq := { s.nq with mask := m.setWidth 7 } }
          result := .ok
          payload := [m, counted (m.setWidth 7)] } := by
        rw [ntmaskOwner, hfield, if_neg (by omega), hmask]
        dsimp only
        rw [maskAnswer_eq, hback]
        rfl
      rw [howner]
      exact State.conclude_taken rfl rfl rfl rfl
    · rw [ntmaskOwner, hfield, if_pos hhigh]
      refine (State.conclude_refused (s := s) rfl rfl rfl (by simp)).trans ?_
      rw [maskAnswer_eq]
      rfl
  case attention =>
    rw [State.attention, List.any_eq_true]
    simp [masked]

end Sys2Proof.Machine
end

section
/-! Requests in general: which owner each request is handed to, and what its refusal leaves and posts (4.11, R173 to R175). -/

namespace Sys2Proof.Machine

/-! ### The owner of each request -/

/-- The owner a request of a known kind is handed to (R173, R195). -/
def requestOwner (r : Request) (s : State) : Reply :=
  match r.kind.toNat with
  | 1 => chmapOwner r.payload s
  | 2 => chstateOwner r.payload s
  | 3 => probeOwner r.payload s
  | 4 => acqsetOwner r.payload s
  | 5 => onPort r.payload s (lnactAt s)
  | 6 => onPort r.payload s (lndeactAt s)
  | 7 => onPort r.payload s (lnconfAt s)
  | 8 => onPort r.payload s (lnresetAt s)
  | 9 => onPort r.payload s (lnpolicyAt r.payload s)
  | 10 => onSlot r.payload s (refopenAt r.payload s)
  | 11 => onSlot r.payload s (refdataAt r.payload s)
  | 12 => onSlot r.payload s (refcloseAt s)
  | 13 => onSlot r.payload s (refclearAt s)
  | 14 => swannOwner r.payload s
  | 15 => swcancelOwner r.payload s
  | 16 => swlistOwner s
  | 17 => qcpolicyOwner r.payload s
  | 18 => swqcOwner r.payload s
  | 19 => stkopenOwner r.payload s
  | 20 => stkcloseOwner r.payload s
  | 21 => stkdropOwner r.payload s
  | 22 => stkinfoOwner r.payload s
  | 23 => oqfetchOwner s
  | 24 => oqrelOwner s
  | 25 => oqsizeOwner r.payload s
  | 26 => statusOwner s
  | 27 => identOwner s
  | 28 => rstfullOwner r.ak s
  | 29 => rstengOwner s
  | 30 => ntreadOwner s
  | 31 => ntmaskOwner r.payload s
  | _ => refuse s .unknown

/-- A request row is the taking of its request by the owner of its kind. -/
theorem exec_request {i : Instr} {r : Request} (hreq : requestOf i = some r) (hknown : ∀ ak k p, i ≠ .unknownRequest ak k p)
    (s : State) : exec i s = .next (s.take r (requestOwner r)) := by
  cases i <;> cases hreq <;> first | rfl | exact absurd rfl (hknown _ _ _)

theorem requestOwner_setAk {r : Request} (h : r.kind ≠ 28#8) (ak : AddressKind) :
    requestOwner { r with ak := ak } = requestOwner r := by
  have hkind : r.kind.toNat ≠ 28 := fun e => h (BitVec.eq_of_toNat_eq e)
  funext s
  unfold requestOwner
  dsimp only
  split
  case h_28 he => exact absurd he hkind
  all_goals rfl

/-! ### What a refusal leaves -/

/-- A reply that refuses left the state it was given, resets nothing, and names its notice, if it has one of its own. -/
def Reply.RefusalKeeps (rep : Reply) (s : State) (notice : Result → Option NoticeBody) : Prop :=
  rep.result ≠ .ok → rep.state = s ∧ rep.thenReset = false ∧ rep.notice = notice rep.result

/-- The notice function of an owner without a notice of its own. -/
def noNotice : Result → Option NoticeBody := fun _ => none

section
variable {p : List Byte} {s : State} {notice : Result → Option NoticeBody}

theorem refusalKeeps_of_ok {rep : Reply} (h : rep.result = .ok) : rep.RefusalKeeps s notice := fun hne => absurd h hne

theorem refusalKeeps_same (r : Result) (pay : List Byte) :
    Reply.RefusalKeeps { state := s, result := r, payload := pay } s noNotice := fun _ => ⟨rfl, rfl, rfl⟩

theorem refusalKeeps_refuse (r : Result) : (refuse s r).RefusalKeeps s noNotice := refusalKeeps_same r []

theorem refusalKeeps_takenOk (t : State) : (takenOk t).RefusalKeeps s notice := refusalKeeps_of_ok rfl

theorem refusalKeeps_reported (i : Fin 8) (r : Result) : (reported s i r).RefusalKeeps s noNotice := refusalKeeps_same r _

theorem refusalKeeps_onPort {f : Fin 4 → Reply} (h : ∀ q, (f q).RefusalKeeps s noNotice) :
    (onPort p s f).RefusalKeeps s noNotice := by
  unfold onPort
  split
  · exact h _
  · exact refusalKeeps_refuse _

theorem refusalKeeps_onSlot {f : Fin 8 → Reply} (h : ∀ i, (f i).RefusalKeeps s noNotice) :
    (onSlot p s f).RefusalKeeps s noNotice := by
  unfold onSlot
  split
  · exact h _
  · exact refusalKeeps_refuse _

theorem chmapOwner_refusalKeeps : (chmapOwner p s).RefusalKeeps s noNotice := by
  unfold chmapOwner
  split
  · exact refusalKeeps_refuse _
  · split_ifs
    · exact refusalKeeps_refuse _
    · exact refusalKeeps_refuse _
    · exact refusalKeeps_takenOk _
    · exact refusalKeeps_refuse _

theorem chstateOwner_refusalKeeps : (chstateOwner p s).RefusalKeeps s noNotice := by
  unfold chstateOwner
  split
  · exact refusalKeeps_refuse _
  · split_ifs
    · exact refusalKeeps_refuse _
    · exact refusalKeeps_refuse _
    · exact refusalKeeps_takenOk _

theorem probeOwner_refusalKeeps : (probeOwner p s).RefusalKeeps s noNotice := by
  unfold probeOwner
  split_ifs
  · exact refusalKeeps_of_ok rfl
  · exact refusalKeeps_refuse _
  · exact refusalKeeps_refuse _

theorem acqsetOwner_refusalKeeps : (acqsetOwner p s).RefusalKeeps s noNotice := by
  unfold acqsetOwner
  split
  · exact refusalKeeps_refuse _
  · split_ifs
    · exact refusalKeeps_refuse _
    · exact refusalKeeps_takenOk _
    · exact refusalKeeps_refuse _

theorem lnactAt_refusalKeeps (q : Fin 4) : (lnactAt s q).RefusalKeeps s noNotice := by
  unfold lnactAt
  split
  all_goals first | exact refusalKeeps_takenOk _ | exact refusalKeeps_refuse _

theorem lndeactAt_refusalKeeps (q : Fin 4) : (lndeactAt s q).RefusalKeeps s noNotice := by
  unfold lndeactAt
  split
  all_goals first | exact refusalKeeps_takenOk _ | exact refusalKeeps_refuse _

theorem lnconfAt_refusalKeeps (q : Fin 4) : (lnconfAt s q).RefusalKeeps s noNotice := by
  unfold lnconfAt
  split
  all_goals first | exact refusalKeeps_takenOk _ | exact refusalKeeps_refuse _

theorem lnpolicyAt_refusalKeeps (q : Fin 4) : (lnpolicyAt p s q).RefusalKeeps s noNotice := by
  unfold lnpolicyAt
  split
  · exact refusalKeeps_refuse _
  · exact refusalKeeps_takenOk _

theorem refopenAt_refusalKeeps (i : Fin 8) : (refopenAt p s i).RefusalKeeps s noNotice := by
  unfold refopenAt
  split_ifs
  · exact refusalKeeps_reported _ _
  · exact refusalKeeps_reported _ _
  · exact refusalKeeps_reported _ _
  · exact refusalKeeps_of_ok rfl

theorem refdataAt_refusalKeeps (i : Fin 8) : (refdataAt p s i).RefusalKeeps s noNotice := by
  unfold refdataAt
  split_ifs
  · exact refusalKeeps_reported _ _
  · exact refusalKeeps_reported _ _
  · exact refusalKeeps_reported _ _
  · exact refusalKeeps_reported _ _
  · exact refusalKeeps_of_ok rfl

theorem refcloseAt_refusalKeeps (i : Fin 8) : (refcloseAt s i).RefusalKeeps s noNotice := by
  unfold refcloseAt
  split
  · exact refusalKeeps_reported _ _
  · exact refusalKeeps_reported _ _
  · split_ifs
    · exact refusalKeeps_of_ok rfl
    · exact refusalKeeps_reported _ _

theorem refclearAt_refusalKeeps (i : Fin 8) : (refclearAt s i).RefusalKeeps s noNotice := by
  unfold refclearAt
  split_ifs
  · exact refusalKeeps_reported _ _
  · exact refusalKeeps_of_ok rfl

theorem swannOwner_refusalKeeps :
    (swannOwner p s).RefusalKeeps s fun res => some (.annRefused (field p 0 2) res) := by
  unfold swannOwner
  split
  · exact fun _ => ⟨rfl, rfl, rfl⟩
  · split
    · exact fun _ => ⟨rfl, rfl, rfl⟩
    · exact refusalKeeps_of_ok rfl

theorem swcancelOwner_refusalKeeps : (swcancelOwner p s).RefusalKeeps s noNotice := by
  unfold swcancelOwner
  split
  · exact refusalKeeps_refuse _
  · split
    · exact refusalKeeps_takenOk _
    · split_ifs
      · exact refusalKeeps_refuse _
      · exact refusalKeeps_refuse _

theorem qcpolicyOwner_refusalKeeps : (qcpolicyOwner p s).RefusalKeeps s noNotice := by
  unfold qcpolicyOwner
  split
  · exact refusalKeeps_same _ _
  · exact refusalKeeps_of_ok rfl

theorem swqcOwner_refusalKeeps : (swqcOwner p s).RefusalKeeps s noNotice := by
  unfold swqcOwner
  split
  · exact refusalKeeps_refuse _
  · split
    · split_ifs
      · exact refusalKeeps_refuse _
      · exact refusalKeeps_of_ok rfl
    · split_ifs
      · exact refusalKeeps_refuse _
      · exact refusalKeeps_refuse _

theorem stkopenOwner_refusalKeeps :
    (stkopenOwner p s).RefusalKeeps s fun res => some (.stkRefused (field p 0 4) res) := by
  unfold stkopenOwner
  split
  · exact fun _ => ⟨rfl, rfl, rfl⟩
  · split_ifs
    · exact fun _ => ⟨rfl, rfl, rfl⟩
    · exact fun _ => ⟨rfl, rfl, rfl⟩
    · exact refusalKeeps_takenOk _

theorem stkcloseOwner_refusalKeeps : (stkcloseOwner p s).RefusalKeeps s noNotice := by
  unfold stkcloseOwner
  split_ifs
  · exact refusalKeeps_refuse _
  · split
    · exact refusalKeeps_refuse _
    · split_ifs
      · exact refusalKeeps_takenOk _
      · exact refusalKeeps_refuse _

theorem stkdropOwner_refusalKeeps : (stkdropOwner p s).RefusalKeeps s noNotice := by
  unfold stkdropOwner
  split_ifs
  · exact refusalKeeps_refuse _
  · split
    · exact refusalKeeps_refuse _
    · exact refusalKeeps_takenOk _

theorem stkinfoOwner_refusalKeeps : (stkinfoOwner p s).RefusalKeeps s noNotice := by
  unfold stkinfoOwner
  split_ifs
  · exact refusalKeeps_refuse _
  · split
    · exact refusalKeeps_refuse _
    · exact refusalKeeps_of_ok rfl

theorem oqrelOwner_refusalKeeps : (oqrelOwner s).RefusalKeeps s noNotice := by
  unfold oqrelOwner
  split
  · exact refusalKeeps_refuse _
  · exact refusalKeeps_of_ok rfl

theorem oqsizeOwner_refusalKeeps : (oqsizeOwner p s).RefusalKeeps s noNotice := by
  unfold oqsizeOwner
  split
  · exact refusalKeeps_refuse _
  · exact refusalKeeps_of_ok rfl

theorem rstfullOwner_refusalKeeps (ak : AddressKind) : (rstfullOwner ak s).RefusalKeeps s noNotice := by
  cases ak
  · exact refusalKeeps_of_ok rfl
  · exact refusalKeeps_takenOk _

theorem ntreadOwner_refusalKeeps : (ntreadOwner s).RefusalKeeps s noNotice := by
  unfold ntreadOwner
  split
  · exact refusalKeeps_of_ok rfl
  · exact refusalKeeps_of_ok rfl

theorem ntmaskOwner_refusalKeeps : (ntmaskOwner p s).RefusalKeeps s noNotice := by
  unfold ntmaskOwner
  split_ifs
  · exact refusalKeeps_same _ _
  · exact refusalKeeps_of_ok rfl

end

/-- Of all requests a SWANN and an STKOPEN alone have a notice of their own for a refusal (R60, R123, R175). -/
theorem requestOwner_refusalKeeps {r : Request} (hswann : r.kind ≠ 14#8) (hstkopen : r.kind ≠ 19#8) (s : State) :
    (requestOwner r s).RefusalKeeps s noNotice := by
  unfold requestOwner
  split
  case h_1 => exact chmapOwner_refusalKeeps
  case h_2 => exact chstateOwner_refusalKeeps
  case h_3 => exact probeOwner_refusalKeeps
  case h_4 => exact acqsetOwner_refusalKeeps
  case h_5 => exact refusalKeeps_onPort lnactAt_refusalKeeps
  case h_6 => exact refusalKeeps_onPort lndeactAt_refusalKeeps
  case h_7 => exact refusalKeeps_onPort lnconfAt_refusalKeeps
  case h_8 => exact refusalKeeps_onPort fun _ => refusalKeeps_takenOk _
  case h_9 => exact refusalKeeps_onPort lnpolicyAt_refusalKeeps
  case h_10 => exact refusalKeeps_onSlot refopenAt_refusalKeeps
  case h_11 => exact refusalKeeps_onSlot refdataAt_refusalKeeps
  case h_12 => exact refusalKeeps_onSlot refcloseAt_refusalKeeps
  case h_13 => exact refusalKeeps_onSlot refclearAt_refusalKeeps
  case h_14 hkind => exact absurd (BitVec.eq_of_toNat_eq hkind) hswann
  case h_15 => exact swcancelOwner_refusalKeeps
  case h_17 => exact qcpolicyOwner_refusalKeeps
  case h_18 => exact swqcOwner_refusalKeeps
  case h_19 hkind => exact absurd (BitVec.eq_of_toNat_eq hkind) hstkopen
  case h_20 => exact stkcloseOwner_refusalKeeps
  case h_21 => exact stkdropOwner_refusalKeeps
  case h_22 => exact stkinfoOwner_refusalKeeps
  case h_24 => exact oqrelOwner_refusalKeeps
  case h_25 => exact oqsizeOwner_refusalKeeps
  case h_28 => exact rstfullOwner_refusalKeeps _
  case h_29 => exact refusalKeeps_takenOk _
  case h_30 => exact ntreadOwner_refusalKeeps
  case h_31 => exact ntmaskOwner_refusalKeeps
  case h_32 => exact refusalKeeps_refuse _
  all_goals exact refusalKeeps_of_ok rfl

/-- The notice an owner's refusal of a broadcast request posts (R60, R123, R175). -/
def refusalNotice (r : Request) (res : Result) : NoticeBody :=
  if r.kind = 14#8 then .annRefused (field r.payload 0 2) res
  else if r.kind = 19#8 then .stkRefused (field r.payload 0 4) res
  else .cmdBadCast r.kind (some res)

theorem requestOwner_refusal {r : Request} {s : State} (h : (requestOwner r s).result ≠ .ok) :
    (requestOwner r s).state = s ∧ (requestOwner r s).thenReset = false ∧
      (requestOwner r s).notice.getD (.cmdBadCast r.kind (some (requestOwner r s).result)) =
        refusalNotice r (requestOwner r s).result := by
  obtain ⟨kind, p, ak⟩ := r
  unfold refusalNotice
  by_cases hswann : kind = 14#8
  · subst hswann
    obtain ⟨hstate, hreset, hnotice⟩ := swannOwner_refusalKeeps h
    exact ⟨hstate, hreset, congrArg (Option.getD · _) hnotice⟩
  by_cases hstkopen : kind = 19#8
  · subst hstkopen
    obtain ⟨hstate, hreset, hnotice⟩ := stkopenOwner_refusalKeeps h
    exact ⟨hstate, hreset, congrArg (Option.getD · _) hnotice⟩
  · obtain ⟨hstate, hreset, hnotice⟩ := requestOwner_refusalKeeps hswann hstkopen s h
    rw [if_neg hswann, if_neg hstkopen, hnotice]
    exact ⟨hstate, hreset, rfl⟩

/-! ### An owner's refusal is never BADLEN -/

/-- The results the conditions 2 to 12 of R59 refuse with. -/
def announceRefusals : List Result :=
  [.full, .duplicate, .noStack, .state, .range, .noRef, .mismatch, .tooOld, .future]

theorem referenceRefusal_mem {s : State} {a : Announcement} {res : Result} (h : referenceRefusal s a = some res) :
    res ∈ announceRefusals := by
  unfold referenceRefusal at h
  split at h
  · split_ifs at h <;> cases h <;> decide
  · split_ifs at h
    cases h
    decide

theorem frontRefusal_mem {s : State} {a : Announcement} {res : Result} (h : frontRefusal s a = some res) :
    res ∈ announceRefusals := by
  unfold frontRefusal at h
  split at h
  · cases h
  · split_ifs at h <;> cases h <;> decide

theorem stackRefusal_mem {s : State} {a : Announcement} {k : Stack} {res : Result} (h : stackRefusal s a k = some res) :
    res ∈ announceRefusals := by
  have hlast (h : (referenceRefusal s a).or (frontRefusal s a) = some res) : res ∈ announceRefusals := by
    obtain hreference | ⟨-, hfront⟩ := Option.or_eq_some_iff.mp h
    · exact referenceRefusal_mem hreference
    · exact frontRefusal_mem hfront
  unfold stackRefusal at h
  split_ifs at h
  · cases h
    decide
  · cases h
    decide
  · split at h
    · exact hlast h
    · exact hlast h
    all_goals
      cases h
      decide

theorem announceCheck_error_mem {s : State} {a : Announcement} {res : Result} (h : announceCheck s a = .error res) :
    res ∈ announceRefusals := by
  unfold announceCheck at h
  split at h
  · cases h
    decide
  split at h
  · cases h
    decide
  split at h
  · cases h
    decide
  split at h
  next hrefusal =>
    cases h
    exact stackRefusal_mem hrefusal
  · cases h

theorem swannOwner_ne_badLen (p : List Byte) (s : State) : (swannOwner p s).result ≠ .badLen := by
  unfold swannOwner
  split
  · exact nofun
  · split
    next r hcheck =>
      show r ≠ .badLen
      rintro rfl
      exact absurd (announceCheck_error_mem hcheck) (by decide)
    · exact nofun

theorem stkopenOwner_ne_badLen (p : List Byte) (s : State) : (stkopenOwner p s).result ≠ .badLen := by
  unfold stkopenOwner
  split
  · exact nofun
  · split_ifs
    · exact nofun
    · exact nofun
    · exact nofun

/-! ### Refusals, addressed and broadcast -/

theorem knownKind_of_requestOf {i : Instr} {r : Request} (hreq : requestOf i = some r)
    (hknown : ∀ ak k p, i ≠ .unknownRequest ak k p) : knownKind r.kind = true := by
  cases i <;> cases hreq <;> first | rfl | exact absurd rfl (hknown _ _ _)

/-- A kind that names a request is not taken as an unknown one (log entry 4). -/
theorem exec_unknownRequest_of_known {k : Byte} (h : knownKind k = true) (ak : AddressKind) (p : List Byte) (s : State) :
    exec (.unknownRequest ak k p) s = .next s := by
  have hnot : ¬ (s.canTake { kind := k, payload := p, ak := ak } && !knownKind k) = true := by simp [h]
  exact congrArg Host.Outcome.next (if_neg hnot)

theorem exec_unknownRequest_of_unknown {k : Byte} (h : knownKind k = false) {ak : AddressKind} {p : List Byte} {s : State}
    (htaking : s.Taking { kind := k, payload := p, ak := ak }) :
    exec (.unknownRequest ak k p) s =
      .next (State.conclude { kind := k, payload := p, ak := ak } (refuse s.dequeue .unknown)) := by
  have htaken : (s.canTake { kind := k, payload := p, ak := ak } && !knownKind k) = true := by
    simp [State.canTake_iff.mpr htaking, h]
  exact congrArg Host.Outcome.next (if_pos htaken)

/-- What a taking concludes: the owner's reply, or a BADLEN refusal (R173). -/
def requestReply (r : Request) (s : State) : Reply :=
  if payloadSuits r.kind r.payload = true then requestOwner r s else refuse s .badLen

theorem take_requestOwner {r : Request} {s : State} (htaking : s.Taking r) :
    s.take r (requestOwner r) = State.conclude r (requestReply r s.dequeue) := by
  unfold requestReply
  split
  next hsuits => exact State.take_fits htaking hsuits
  next hsuits => exact State.take_badLen htaking (Bool.eq_false_iff.mpr hsuits)

theorem requestReply_state {r : Request} {s : State} (h : (requestReply r s).result ≠ .ok) :
    (requestReply r s).state = s := by
  unfold requestReply at h ⊢
  split at h
  next hsuits => rw [if_pos hsuits]; exact (requestOwner_refusal h).1
  next hsuits => rw [if_neg hsuits]; rfl

theorem requestOwner_ne_badLen {r : Request} (h : r.kind = 14#8 ∨ r.kind = 19#8) (s : State) :
    (requestOwner r s).result ≠ .badLen := by
  obtain ⟨kind, p, ak⟩ := r
  obtain rfl | rfl := h
  · exact swannOwner_ne_badLen p s
  · exact stkopenOwner_ne_badLen p s

/-- The notice a broadcast request's refusal posts, BADLEN among the refusals (R60, R123, R175). -/
theorem requestReply_notice {r : Request} {s : State} (h : (requestReply r s).result ≠ .ok) :
    (requestReply r s).notice.getD (.cmdBadCast r.kind (some (requestReply r s).result)) =
      if r.kind = 14#8 ∧ (requestReply r s).result ≠ .badLen then
        .annRefused (field r.payload 0 2) (requestReply r s).result
      else if r.kind = 19#8 ∧ (requestReply r s).result ≠ .badLen then
        .stkRefused (field r.payload 0 4) (requestReply r s).result
      else .cmdBadCast r.kind (some (requestReply r s).result) := by
  unfold requestReply at h ⊢
  split at h
  next hsuits =>
    rw [if_pos hsuits, (requestOwner_refusal h).2.2, refusalNotice]
    by_cases hswann : r.kind = 14#8
    · rw [if_pos hswann, if_pos ⟨hswann, requestOwner_ne_badLen (.inl hswann) s⟩]
    by_cases hstkopen : r.kind = 19#8
    · rw [if_neg hswann, if_pos hstkopen, if_neg fun hc => hswann hc.1,
        if_pos ⟨hstkopen, requestOwner_ne_badLen (.inr hstkopen) s⟩]
    · rw [if_neg hswann, if_neg hstkopen, if_neg fun hc => hswann hc.1, if_neg fun hc => hstkopen hc.1]
  next hsuits =>
    rw [if_neg hsuits, if_neg fun hc => hc.2 rfl, if_neg fun hc => hc.2 rfl]
    rfl

/-- A refusing reply is the same for both address kinds: the RSTFULL, whose reply is not, is never refused by its owner. -/
theorem requestReply_setAk {r : Request} {s : State} (h : (requestReply r s).result ≠ .ok) (ak : AddressKind) :
    requestReply { r with ak := ak } s = requestReply r s := by
  unfold requestReply at h ⊢
  split at h
  next hsuits =>
    have hkind : r.kind ≠ 28#8 := by
      obtain ⟨kind, p, ak⟩ := r
      rintro rfl
      cases ak <;> exact h rfl
    rw [requestOwner_setAk hkind]
  next hsuits => rw [if_neg hsuits, if_neg hsuits]

theorem exec_request_reply {i : Instr} {r : Request} {s : State} (hreq : requestOf i = some r)
    (hknown : ∀ ak k p, i ≠ .unknownRequest ak k p) (htaking : s.Taking r) :
    exec i s = .next (State.conclude r (requestReply r s.dequeue)) := by
  rw [exec_request hreq hknown, take_requestOwner htaking]

/-- An answer that enters SENDING carries its reply's result. -/
theorem result_of_sending {k : Byte} {rep : Reply} {a : Answer} {b : Bool}
    (h : (rep.state.send k rep).cmd.uplink = .sending a b) : a.result = rep.result := by
  cases h
  rfl

theorem exec_addressed_refusal {i : Instr} {r : Request} {s t : State} {a : Answer} {b : Bool} (hreq : requestOf i = some r)
    (haddressed : r.ak = .addressed) (htaking : s.Taking r) (hexec : exec i s = .next t)
    (hsending : t.cmd.uplink = .sending a b) (hrefused : a.result ≠ .ok) : t = { s with cmd := t.cmd } := by
  obtain ⟨kind, p, ak⟩ := r
  subst haddressed
  by_cases hknown : ∀ ak k p, i ≠ .unknownRequest ak k p
  · rw [exec_request_reply hreq hknown htaking] at hexec
    cases hexec
    have hstate := requestReply_state (result_of_sending hsending ▸ hrefused)
    have hsent : State.conclude { kind := kind, payload := p, ak := .addressed }
        (requestReply { kind := kind, payload := p, ak := .addressed } s.dequeue) = s.dequeue.send kind
          (requestReply { kind := kind, payload := p, ak := .addressed } s.dequeue) :=
      congrArg (fun x : State => x.send kind (requestReply { kind := kind, payload := p, ak := .addressed } s.dequeue)) hstate
    rw [hsent]
    rfl
  · push Not at hknown
    obtain ⟨ak, k, p, rfl⟩ := hknown
    cases hreq
    cases hkind : knownKind kind with
    | true =>
      rw [exec_unknownRequest_of_known hkind] at hexec
      cases hexec
      rfl
    | false =>
      rw [exec_unknownRequest_of_unknown hkind htaking] at hexec
      cases hexec
      rfl

theorem exec_broadcast_refusal {i j : Instr} {r : Request} {s t : State} {a : Answer} {b : Bool}
    (hi : requestOf i = some { r with ak := .addressed }) (hj : requestOf j = some { r with ak := .broadcast })
    (hjknown : ∀ ak k p, j ≠ .unknownRequest ak k p) (htaking : s.Taking { r with ak := .addressed })
    (hexec : exec i s = .next t) (hsending : t.cmd.uplink = .sending a b) (hrefused : a.result ≠ .ok) :
    exec j { s with cmd := { s.cmd with inputQueue := { r with ak := .broadcast } :: s.cmd.inputQueue.tail } } =
      .next (s.dequeue.post
        (if r.kind = 14#8 ∧ a.result ≠ .badLen then .annRefused (field r.payload 0 2) a.result
        else if r.kind = 19#8 ∧ a.result ≠ .badLen then .stkRefused (field r.payload 0 4) a.result
        else .cmdBadCast r.kind (some a.result))) := by
  obtain ⟨kind, p, ak⟩ := r
  have hiknown : ∀ ak k p, i ≠ .unknownRequest ak k p := by
    rintro ak k p rfl
    cases hi
    rw [exec_unknownRequest_of_known (knownKind_of_requestOf hj hjknown)] at hexec
    cases hexec
    rw [htaking.quiet] at hsending
    cases hsending
  rw [exec_request_reply hi hiknown htaking] at hexec
  cases hexec
  have hresult := result_of_sending hsending
  rw [hresult] at hrefused ⊢
  have hheard : State.Taking
      { s with cmd := { s.cmd with inputQueue := { kind := kind, payload := p, ak := .broadcast } :: s.cmd.inputQueue.tail } }
      { kind := kind, payload := p, ak := .broadcast } := ⟨htaking.outside, htaking.quiet, rfl⟩
  rw [exec_request_reply hj hjknown hheard]
  refine congrArg Host.Outcome.next ?_
  have hreply := requestReply_setAk hrefused .broadcast
  show State.conclude { kind := kind, payload := p, ak := .broadcast }
    (requestReply { kind := kind, payload := p, ak := .broadcast } s.dequeue) = _
  rw [hreply, ← requestReply_notice hrefused]
  refine (if_neg hrefused).trans ?_
  rw [requestReply_state hrefused]

/-- Settles O19: an owner that refuses left the dequeued state, and its refusal is the same for a broadcast request. -/
theorem refusedRequestsChangeNothing : Obligations.RefusedRequestsChangeNothing := by
  unfold Obligations.RefusedRequestsChangeNothing
  exact ⟨fun _ _ _ _ _ _ => exec_addressed_refusal, fun _ _ _ _ _ _ _ => exec_broadcast_refusal⟩

/-! ### Unknown kinds and unsuitable lengths -/

/-- Settles O20: an unknown kind is no kind of the table, and an unsuitable length is refused before the owner. -/
theorem unknownKindsAndBadLengthsAreRefused : Obligations.UnknownKindsAndBadLengthsAreRefused := by
  unfold Obligations.UnknownKindsAndBadLengthsAreRefused
  refine ⟨fun s ak k p htaking hunknown => ?_, fun i r s hreq _ _ hlength htaking hknown => ?_⟩
  · have hkind : knownKind k = false := by
      simp [knownKind]
      omega
    rw [exec_unknownRequest_of_unknown hkind htaking]
    exact congrArg Host.Outcome.next (State.conclude_refused rfl rfl rfl (by simp [refuse]))
  · rw [exec_request hreq hknown, State.take_badLen htaking hlength]
    exact congrArg Host.Outcome.next (State.conclude_refused rfl rfl rfl (by simp [refuse]))

end Sys2Proof.Machine
end

section
/-! Requests that read, that describe channels and that write a setting (chapters 1, 2, 6, 8 and 9). -/

namespace Sys2Proof.Machine

/-- A request whose owner answers OK and keeps the dequeued command port: the whole taking. -/
theorem State.take_ok {s t : State} {r : Request} {owner : State → Reply} {pay : List Byte} (h : s.Taking r)
    (hp : payloadSuits r.kind r.payload = true)
    (ho : owner s.dequeue = { state := t, result := .ok, payload := pay }) (hc : t.cmd = s.dequeue.cmd) :
    s.take r owner = { t with cmd := s.cmd.taken r .ok pay } := by
  rw [State.take_fits h hp, ho]
  exact State.conclude_taken rfl rfl hc rfl

/-! ### Requests that read -/

theorem laneByte_eq (l : Option (Fin 4)) : laneByte l = (l.map fun l => byteOf l.val).getD 0xFF#8 := by
  cases l <;> rfl

theorem probeOwner_outOfRange {s : State} {p : List Byte} (h : 479 < field p 0 2 ∨ field p 10 2 = 0 ∨ 256 < field p 10 2) :
    probeOwner p s = refuse s .range := by
  unfold probeOwner
  split
  · exact if_neg (by omega)
  · rfl

theorem stkinfoOwner_found {s : State} {vp : Nat} {k : Stack} (hpos : 1 ≤ vp) (hvp : vp < 4294967296)
    (hfound : s.findStack vp = some k) :
    stkinfoOwner (leBytes 4 vp) s = { state := s, result := .ok, payload := stackInfo s k } := by
  have hfield : field (leBytes 4 vp) 0 4 = vp := by rw [field_all (by simp), leNat_leBytes (by omega)]
  unfold stkinfoOwner
  rw [hfield, if_neg (by omega), hfound]

/-- Settles O21: each owner answers what the state holds and leaves it. -/
theorem readingRequestsAnswerAndChangeNothing : Obligations.ReadingRequestsAnswerAndChangeNothing := by
  unfold Obligations.ReadingRequestsAnswerAndChangeNothing
  refine ⟨fun s c first count hfirst hpos hcount htaking => exec_probe_inRange hfirst hpos hcount htaking,
    fun s p hlength htaking hrange => congrArg Host.Outcome.next ?probe,
    fun s htaking => congrArg Host.Outcome.next ?swlist,
    fun s vp k hpos hvp hfound htaking => congrArg Host.Outcome.next ?stkinfo,
    fun s htaking => congrArg Host.Outcome.next (State.take_ok (t := s.dequeue) htaking rfl rfl rfl),
    fun s htaking => congrArg Host.Outcome.next (State.take_ok (t := s.dequeue) htaking rfl rfl rfl),
    fun s htaking => congrArg Host.Outcome.next (State.take_ok (t := s.dequeue) htaking rfl rfl rfl)⟩
  case probe =>
    exact State.take_refused htaking (by simp [payloadSuits, hlength]) nofun (probeOwner_outOfRange hrange)
  case swlist =>
    have howner : swlistOwner s.dequeue = {
        state := s.dequeue
        result := .ok
        payload := [byteOf s.sweeps.length] ++ s.sweeps.flatMap fun e =>
          leBytes 2 e.tag ++ leBytes 4 e.vp ++ leBytes 1 e.number ++ leBytes 8 e.start ++
            [codeByte sweepStateList e.state, (e.lane.map fun l => byteOf l.val).getD 0xFF#8] } := by
      simp only [← laneByte_eq]
      rfl
    exact State.take_ok (t := s.dequeue) htaking rfl howner rfl
  case stkinfo =>
    exact State.take_ok (t := s.dequeue) htaking (by simp [payloadSuits]) (stkinfoOwner_found (s := s.dequeue) hpos hvp hfound) rfl

/-! ### Channels -/

section
variable {port first count : Nat} {ds : List ChannelEntry} {st : ChannelState}

theorem descriptionBytes_length (d : ChannelEntry) : (descriptionBytes d).length = 7 := by simp [descriptionBytes]

theorem field_chmapPayload_port (h : port < 256) : field (chmapPayload port first ds) 0 1 = port := by
  simp only [chmapPayload, List.append_assoc]
  exact field_leBytes h

theorem field_chmapPayload_first (h : first < 256) : field (chmapPayload port first ds) 1 1 = first := by
  simp only [chmapPayload, List.append_assoc]
  rw [field_skip (o := 0) (by simp)]
  exact field_leBytes h

theorem field_chmapPayload_count (h : ds.length < 256) : field (chmapPayload port first ds) 2 1 = ds.length := by
  simp only [chmapPayload, List.append_assoc]
  rw [field_skip (o := 1) (by simp), field_skip (o := 0) (by simp)]
  exact field_leBytes h

theorem chmapPayload_length : (chmapPayload port first ds).length = 3 + 7 * ds.length := by
  rw [chmapPayload, List.length_append, flatMap_length _ 7 _ fun d _ => descriptionBytes_length d]
  simp

theorem payloadSuits_chmapPayload (h : ds.length < 256) : payloadSuits 1#8 (chmapPayload port first ds) = true := by
  simp [payloadSuits, chmapPayload_length, field_chmapPayload_count h]

/-- A list of descriptions is read back (R195). -/
theorem readDescriptions_chmapPayload (h : ds.length < 256) (hds : ∀ d ∈ ds, d.station < 4294967296 ∧ d.line < 65536) :
    readDescriptions (chmapPayload port first ds) = some ds := by
  have hrest : (chmapPayload port first ds).drop 3 = ds.flatMap descriptionBytes := List.drop_left' (by simp)
  unfold readDescriptions
  rw [field_chmapPayload_count h, hrest, chunks_flatMap _ 7 _ fun d _ => descriptionBytes_length d, List.map_map,
    allSome_map (readDescription ∘ descriptionBytes) id _ fun d hd => readDescription_bytes d (hds d hd).1 (hds d hd).2, List.map_id]

theorem chmapOwner_inRange {s : State} (hport : port ≤ 3) (hpos : 1 ≤ ds.length) (hrun : first + ds.length ≤ 120)
    (hempty : s.stackTable = []) (hds : ∀ d ∈ ds, d.station < 4294967296 ∧ d.line < 65536) :
    chmapOwner (chmapPayload port first ds) s =
      takenOk { s with channels := writeDescriptions s.channels (120 * port + first) ds } := by
  unfold chmapOwner
  rw [readDescriptions_chmapPayload (by omega) hds, field_chmapPayload_port (by omega), field_chmapPayload_first (by omega),
    field_chmapPayload_count (by omega)]
  dsimp only
  rw [if_neg (by omega), if_neg (by omega), if_pos (by rw [hempty]; rfl)]

theorem field_chstatePayload_first (h : first < 65536) : field (chstatePayload first count st) 0 2 = first := by
  simp only [chstatePayload, List.append_assoc]
  exact field_leBytes h

theorem field_chstatePayload_count (h : count < 65536) : field (chstatePayload first count st) 2 2 = count := by
  simp only [chstatePayload, List.append_assoc]
  rw [field_skip (o := 0) (by simp)]
  exact field_leBytes h

theorem field_chstatePayload_state :
    field (chstatePayload first count st) 4 1 = (codeByte channelStateList st).toNat := by
  rw [chstatePayload, field_skip (o := 0) (by simp), field_all (by simp), leNat_singleton]

theorem chstateOwner_inRange {s : State} (hpos : 1 ≤ count) (hrun : first + count ≤ 480) :
    chstateOwner (chstatePayload first count st) s =
      takenOk { s with channels := writeStates s.channels first st count } := by
  have hstate : ofCode channelStateList (codeByte channelStateList st).toNat = some st :=
    ofCode_codeByte (by cases st <;> decide) (by decide)
  unfold chstateOwner
  rw [field_chstatePayload_state, hstate, field_chstatePayload_first (by omega), field_chstatePayload_count (by omega)]
  dsimp only
  rw [if_neg (by omega), if_neg (by omega)]

end

theorem chmapOwner_refused {s : State} {p : List Byte}
    (h : 3 < field p 0 1 ∨ 119 < field p 1 1 ∨ field p 2 1 = 0 ∨ 120 < field p 2 1 ∨ 120 < field p 1 1 + field p 2 1 ∨
      readDescriptions p = none) : chmapOwner p s = refuse s .range := by
  unfold chmapOwner
  cases hread : readDescriptions p with
  | none => rfl
  | some ds =>
    rw [hread] at h
    dsimp only
    split
    · rfl
    · simp only [reduceCtorEq, or_false] at h
      exact if_pos (by omega)

theorem chmapOwner_busy {s : State} {p : List Byte} (hbusy : s.stackTable ≠ [])
    (h : ¬ (3 < field p 0 1 ∨ 119 < field p 1 1 ∨ field p 2 1 = 0 ∨ 120 < field p 2 1 ∨ 120 < field p 1 1 + field p 2 1 ∨
      readDescriptions p = none)) : chmapOwner p s = refuse s .busy := by
  unfold chmapOwner
  cases hread : readDescriptions p with
  | none => exact absurd (.inr (.inr (.inr (.inr (.inr hread))))) h
  | some ds =>
    dsimp only
    rw [if_neg (by omega), if_neg (by omega), if_neg (by simpa using hbusy)]

theorem chstateOwner_refused {s : State} {p : List Byte}
    (h : 479 < field p 0 2 ∨ field p 2 2 = 0 ∨ 480 < field p 2 2 ∨ 2 < field p 4 1 ∨ 480 < field p 0 2 + field p 2 2) :
    chstateOwner p s = refuse s .range := by
  have hstate := ofCode_eq_none channelStateList (field p 4 1)
  have hlength : channelStateList.length = 3 := rfl
  unfold chstateOwner
  cases hread : ofCode channelStateList (field p 4 1) with
  | none => rfl
  | some st =>
    rw [hread, hlength] at hstate
    simp only [reduceCtorEq, false_iff] at hstate
    dsimp only
    split
    · rfl
    · exact if_pos (by omega)

/-- Settles O22: the run written by writeDescriptions, the refusals in the order of R3. -/
theorem chmapWritesItsRunOfChannels : Obligations.ChmapWritesItsRunOfChannels := by
  unfold Obligations.ChmapWritesItsRunOfChannels
  refine ⟨fun s ak port first ds htaking hport hpos hrun hempty hds => ?_, ?_⟩
  · exact ⟨_, congrArg Host.Outcome.next (State.take_ok htaking (payloadSuits_chmapPayload (by omega))
      (chmapOwner_inRange hport hpos hrun hempty hds) rfl), rfl, fun c => writeDescriptions_get ds _ _ c⟩
  · intro s ak p hlength htaking bad
    have hsuits : payloadSuits 1#8 p = true := by
      simp [payloadSuits, ← hlength]
      omega
    have hbad : bad ↔ (3 < field p 0 1 ∨ 119 < field p 1 1 ∨ field p 2 1 = 0 ∨ 120 < field p 2 1 ∨
        120 < field p 1 1 + field p 2 1 ∨ readDescriptions p = none) := by rw [readDescriptions_eq_none]
    rw [hbad]
    exact ⟨fun h => congrArg Host.Outcome.next (State.take_refused htaking hsuits nofun (chmapOwner_refused h)),
      fun h hbusy => congrArg Host.Outcome.next (State.take_refused htaking hsuits nofun (chmapOwner_busy hbusy h))⟩

/-- Settles O23: the run written by writeStates, and the refusals of R4. -/
theorem chstateSetsStatesAlone : Obligations.ChstateSetsStatesAlone := by
  unfold Obligations.ChstateSetsStatesAlone
  refine ⟨fun s ak first count st htaking hpos hrun => ?_, fun s ak p hlength htaking hrange => ?_⟩
  · exact ⟨_, congrArg Host.Outcome.next (State.take_ok htaking (by simp [payloadSuits, chstatePayload])
      (chstateOwner_inRange hpos hrun) rfl), rfl, fun c => writeStates_get count _ _ _ c⟩
  · exact congrArg Host.Outcome.next (State.take_refused htaking (by simp [payloadSuits, hlength]) nofun
      (chstateOwner_refused hrange))

/-! ### Settings -/

theorem any_port_moved {s : State} : (s.ports.toList.any fun x => x.state != .off) = true ↔
    ∃ p : Fin 4, s.ports[p].state ≠ .off := by
  rw [List.any_eq_true]
  constructor
  · rintro ⟨x, hx, hmoved⟩
    obtain ⟨i, hi, rfl⟩ := Vector.mem_iff_getElem.mp (Vector.mem_toList_iff.mp hx)
    exact ⟨⟨i, hi⟩, by simpa using hmoved⟩
  · rintro ⟨p, hmoved⟩
    exact ⟨s.ports[p], Vector.mem_toList_iff.mpr (Vector.getElem_mem p.isLt), by simpa using hmoved⟩

theorem ofCode_intervalList (d : SampleInterval) : ofCode intervalList (codeByte intervalList d).toNat = some d :=
  ofCode_codeByte (by cases d <;> decide) (by decide)

theorem acqsetOwner_taken {s : State} {d : SampleInterval} (hoff : ∀ p : Fin 4, s.ports[p].state = .off)
    (hsweeps : s.sweeps = []) : acqsetOwner [codeByte intervalList d] s = takenOk { s with interval := d } := by
  have hports : ¬ (s.ports.toList.any fun x => x.state != .off) = true := by
    rw [any_port_moved]
    rintro ⟨p, hp⟩
    exact hp (hoff p)
  have hfield : field [codeByte intervalList d] 0 1 = (codeByte intervalList d).toNat := leNat_singleton _
  unfold acqsetOwner
  rw [hfield, ofCode_intervalList]
  dsimp only
  rw [if_neg hports, if_pos (by rw [hsweeps]; rfl)]

theorem acqsetOwner_range {s : State} {b : Byte} (h : 4 < b.toNat) : acqsetOwner [b] s = refuse s .range := by
  have hfield : field [b] 0 1 = b.toNat := leNat_singleton b
  have hcode : ofCode intervalList b.toNat = none := (ofCode_eq_none _ _).mpr h
  unfold acqsetOwner
  rw [hfield, hcode]

theorem acqsetOwner_busy {s : State} {b : Byte} (h : b.toNat ≤ 4)
    (hbusy : (∃ p : Fin 4, s.ports[p].state ≠ .off) ∨ s.sweeps ≠ []) : acqsetOwner [b] s = refuse s .busy := by
  have hfield : field [b] 0 1 = b.toNat := leNat_singleton b
  obtain ⟨d, hd⟩ : ∃ d, ofCode intervalList b.toNat = some d :=
    Option.ne_none_iff_exists'.mp fun hnone => by
      have := (ofCode_eq_none _ _).mp hnone
      simp only [intervalList, List.length_cons, List.length_nil] at this
      omega
  unfold acqsetOwner
  rw [hfield, hd]
  dsimp only
  split
  · rfl
  next hports =>
    rw [any_port_moved] at hports
    exact if_neg (by simpa using hbusy.resolve_left hports)

theorem field_lnpolicyPayload_port (p : Fin 4) (pol : LinePolicy) : field (lnpolicyPayload p.val pol) 0 1 = p.val := by
  rw [lnpolicyPayload, field_leBytes (by omega)]

theorem readLinePolicy_payload (p : Fin 4) {pol : LinePolicy} (hlimit : pol.slipLimit ∈ slipLimitList)
    (hthreshold : pol.slipThreshold ≤ 15) (hwait : pol.retryWait ∈ retryWaitList)
    (hretry : pol.retryLimit ∈ retryLimitList) : readLinePolicy (lnpolicyPayload p.val pol) = some pol := by
  have h1 : field (lnpolicyPayload p.val pol) 1 1 = (codeByte slipLimitList pol.slipLimit).toNat := rfl
  have h2 : field (lnpolicyPayload p.val pol) 2 1 = pol.slipThreshold := by
    show (byteOf pol.slipThreshold).toNat + 256 * 0 = _
    simp only [byteOf, BitVec.toNat_ofNat]
    omega
  have h3 : field (lnpolicyPayload p.val pol) 3 1 = (codeByte faultModeList pol.faultMode).toNat := rfl
  have h4 : field (lnpolicyPayload p.val pol) 4 1 = (codeByte retryWaitList pol.retryWait).toNat := rfl
  have h5 : field (lnpolicyPayload p.val pol) 5 1 = (codeByte retryLimitList pol.retryLimit).toNat := rfl
  have hmode : pol.faultMode ∈ faultModeList := by cases pol.faultMode <;> decide
  unfold readLinePolicy
  rw [h1, h2, h3, h4, h5, ofCode_codeByte hlimit (by decide), ofCode_codeByte hmode (by decide),
    ofCode_codeByte hwait (by decide), ofCode_codeByte hretry (by decide)]
  exact if_pos hthreshold

theorem onPort_of_field {p : List Byte} {q : Fin 4} (h : field p 0 1 = q.val) (s : State) (f : Fin 4 → Reply) :
    onPort p s f = f q := by
  have hq : field p 0 1 < 4 := h ▸ q.isLt
  unfold onPort
  rw [dif_pos hq]
  exact congrArg f (Fin.ext h)

theorem onPort_out {p : List Byte} (h : 3 < field p 0 1) (s : State) (f : Fin 4 → Reply) :
    onPort p s f = refuse s .range := dif_neg (by omega)

theorem lnpolicyOwner_refused {s : State} {p : List Byte}
    (h : 3 < field p 0 1 ∨ 7 < field p 1 1 ∨ 15 < field p 2 1 ∨ 2 < field p 3 1 ∨ 5 < field p 4 1 ∨ 6 < field p 5 1) :
    onPort p s (lnpolicyAt p s) = refuse s .range := by
  obtain hport | hpolicy := h
  · exact onPort_out hport s _
  · unfold onPort lnpolicyAt
    rw [readLinePolicy_eq_none hpolicy]
    split <;> rfl

theorem qcActionList_mem (a : QcAction) : a ∈ qcActionList := by cases a <;> decide

theorem ofCode_qcActionList (a : QcAction) : ofCode qcActionList (codeByte qcActionList a).toNat = some a :=
  ofCode_codeByte (qcActionList_mem a) (by decide)

/-- A policy is read back from the nine bytes QCPOLICY carries (R102, R195). -/
theorem readQcPolicy_bytes {q : QcPolicy} (hphase : q.phaseLimit ∈ phaseLimitList)
    (hdistortion : q.distortionLimit ∈ distortionLimitList) (hforce : q.forceFloor ∈ forceFloorList)
    (hwait : q.waitLimit ∈ waitLimitList) : readQcPolicy (qcPolicyBytes q) = some q := by
  have h0 : field (qcPolicyBytes q) 0 1 = (codeByte phaseLimitList q.phaseLimit).toNat := rfl
  have h1 : field (qcPolicyBytes q) 1 1 = (codeByte qcActionList q.phaseAction).toNat := rfl
  have h2 : field (qcPolicyBytes q) 2 1 = (codeByte distortionLimitList q.distortionLimit).toNat := rfl
  have h3 : field (qcPolicyBytes q) 3 1 = (codeByte qcActionList q.distortionAction).toNat := rfl
  have h4 : field (qcPolicyBytes q) 4 1 = (codeByte forceFloorList q.forceFloor).toNat := rfl
  have h5 : field (qcPolicyBytes q) 5 1 = (codeByte qcActionList q.forceAction).toNat := rfl
  have h6 : field (qcPolicyBytes q) 6 1 = (flagByte q.required).toNat := rfl
  have h7 : field (qcPolicyBytes q) 7 1 = (codeByte waitLimitList q.waitLimit).toNat := rfl
  have h8 : field (qcPolicyBytes q) 8 1 = (codeByte timeoutActionList q.timeoutAction).toNat := rfl
  have hrequired : ofCode flagList (flagByte q.required).toNat = some q.required := by cases q.required <;> rfl
  have htimeout : q.timeoutAction ∈ timeoutActionList := by cases q.timeoutAction <;> decide
  unfold readQcPolicy
  rw [h0, h1, h2, h3, h4, h5, h6, h7, h8, ofCode_codeByte hphase (by decide), ofCode_qcActionList,
    ofCode_codeByte hdistortion (by decide), ofCode_qcActionList, ofCode_codeByte hforce (by decide), ofCode_qcActionList,
    hrequired, ofCode_codeByte hwait (by decide), ofCode_codeByte htimeout (by decide)]

theorem qcpolicyOwner_taken {s : State} {p : List Byte} {q : QcPolicy} (h : readQcPolicy p = some q) :
    qcpolicyOwner p s = { state := { s with qcPolicy := q }, result := .ok, payload := qcPolicyBytes q } := by
  rw [qcpolicyOwner, h]

theorem qcpolicyOwner_refused {s : State} {p : List Byte} (h : readQcPolicy p = none) :
    qcpolicyOwner p s = { state := s, result := .range, payload := qcPolicyBytes s.qcPolicy } := by
  rw [qcpolicyOwner, h]

theorem oqsizeOwner_taken {s : State} {b : Nat} (h : b ∈ blockSizeList) :
    oqsizeOwner [codeByte blockSizeList b] s =
      { state := { s with oq := { s.oq with pendingBlock := b } }, result := .ok
        payload := [codeByte blockSizeList s.oq.effectiveBlock, codeByte blockSizeList b] } := by
  have hfield : field [codeByte blockSizeList b] 0 1 = (codeByte blockSizeList b).toNat := leNat_singleton _
  rw [oqsizeOwner, hfield, ofCode_codeByte h (by decide)]

theorem oqsizeOwner_refused {s : State} {b : Byte} (h : 3 < b.toNat) : oqsizeOwner [b] s = refuse s .range := by
  have hfield : field [b] 0 1 = b.toNat := leNat_singleton b
  have hcode : ofCode blockSizeList b.toNat = none := (ofCode_eq_none _ _).mpr h
  rw [oqsizeOwner, hfield, hcode]

/-- Settles O24: each setting read back from its payload and written alone, and the refusals of its columns. -/
theorem settingRequestsWriteTheirSetting : Obligations.SettingRequestsWriteTheirSetting := by
  unfold Obligations.SettingRequestsWriteTheirSetting
  refine ⟨fun s ak d htaking hoff hsweeps => congrArg Host.Outcome.next ?acqset,
    fun s ak p pol htaking hlimit hthreshold hwait hretry => congrArg Host.Outcome.next ?lnpolicy,
    fun s ak q htaking hphase hdistortion hforce hwait => congrArg Host.Outcome.next ?qcpolicy,
    fun s ak b htaking hb => congrArg Host.Outcome.next ?oqsize,
    fun s ak b htaking => ⟨fun hrange => congrArg Host.Outcome.next ?acqsetRange,
      fun hb hbusy => congrArg Host.Outcome.next ?acqsetBusy⟩,
    fun s ak p hlength htaking hrange => congrArg Host.Outcome.next ?lnpolicyRange,
    fun s ak p hlength htaking hrange => congrArg Host.Outcome.next ?qcpolicyRange,
    fun s ak b htaking hrange => congrArg Host.Outcome.next ?oqsizeRange⟩
  case acqset => exact State.take_ok htaking rfl (acqsetOwner_taken hoff hsweeps) rfl
  case lnpolicy =>
    refine State.take_ok (owner := fun s => onPort (lnpolicyPayload p.val pol) s (lnpolicyAt (lnpolicyPayload p.val pol) s))
      (t := s.dequeue.updPort p fun x => { x with policy := pol }) htaking rfl ?_ rfl
    rw [onPort_of_field (field_lnpolicyPayload_port p pol), lnpolicyAt,
      readLinePolicy_payload p hlimit hthreshold hwait hretry]
    rfl
  case qcpolicy =>
    exact State.take_ok htaking rfl (qcpolicyOwner_taken (readQcPolicy_bytes hphase hdistortion hforce hwait)) rfl
  case oqsize => exact State.take_ok htaking rfl (oqsizeOwner_taken hb) rfl
  case acqsetRange => exact State.take_refused htaking rfl nofun (acqsetOwner_range hrange)
  case acqsetBusy => exact State.take_refused htaking rfl nofun (acqsetOwner_busy hb hbusy)
  case lnpolicyRange =>
    exact State.take_refused htaking (by simp [payloadSuits, hlength]) nofun (lnpolicyOwner_refused hrange)
  case qcpolicyRange =>
    exact State.take_refused htaking (by simp [payloadSuits, hlength]) nofun
      (qcpolicyOwner_refused (readQcPolicy_eq_none hrange))
  case oqsizeRange => exact State.take_refused htaking rfl nofun (oqsizeOwner_refused hrange)

end Sys2Proof.Machine
end

section
/-! Line frames byte by byte (R21, R197). -/

namespace Sys2Proof.Machine

/-! ### Valid line frames -/

theorem checkGood_iff {bs : List Byte} : checkGood bs = true ↔ ∃ b, bs = b ++ checkBytes b := by
  constructor
  · intro h
    simp only [checkGood, Bool.and_eq_true, beq_iff_eq] at h
    exact ⟨bs.take (bs.length - 2), by rw [← h.2, List.take_append_drop]⟩
  · rintro ⟨b, rfl⟩
    exact checkGood_append b

@[simp] theorem checkBytes_length (b : List Byte) : (checkBytes b).length = 2 := rfl

section
variable {index : Nat} {samples : List Sample} {tail : List Byte}

theorem lineSamples_length : (samples.flatMap fun d => leBytes 3 d.toNat).length = 3 * samples.length :=
  flatMap_length _ 3 _ (by simp)

theorem lineBody_length : (lineBody index samples).length = 7 + 3 * samples.length := by
  rw [lineBody, List.length_append, lineSamples_length]
  simp

theorem field_lineBody_index (h : index < 281474976710656) : field (lineBody index samples ++ tail) 0 6 = index := by
  simp only [lineBody, List.append_assoc]
  exact field_leBytes h

theorem field_lineBody_count (h : samples.length < 256) : field (lineBody index samples ++ tail) 6 1 = samples.length := by
  simp only [lineBody, List.append_assoc]
  rw [field_skip (o := 0) (by simp)]
  exact field_leBytes h

theorem leNat_sample (d : Sample) : BitVec.ofNat 24 (leNat (leBytes 3 d.toNat)) = d := by
  have hd : d.toNat < 256 ^ 3 := d.isLt
  rw [leNat_leBytes hd, BitVec.ofNat_toNat, BitVec.setWidth_eq]

/-- The samples of a frame are read back (R197). -/
theorem chunks_lineBody : ((chunks 3 samples.length ((lineBody index samples ++ tail).drop 7)).map fun b =>
    (BitVec.ofNat 24 (leNat b) : Sample)) = samples := by
  have hrest : (lineBody index samples ++ tail).drop 7 = (samples.flatMap fun d => leBytes 3 d.toNat) ++ tail := by
    rw [lineBody, List.append_assoc]
    exact List.drop_left' (by simp)
  rw [hrest, chunks_append _ _ _ _ lineSamples_length.ge, chunks_flatMap _ 3 _ (by simp), List.map_map]
  exact (List.map_congr_left fun d _ => leNat_sample d).trans (List.map_id _)

end

/-- Bytes of a frame's length are its index, its count and its samples, written again (R197). -/
theorem lineBody_of_bytes {body : List Byte} {n : Nat} (hlength : body.length = 7 + 3 * n) (hn : n < 256)
    (hcount : field body 6 1 = n) :
    body = lineBody (field body 0 6) ((chunks 3 n (body.drop 7)).map fun b => (BitVec.ofNat 24 (leNat b) : Sample)) := by
  have hindex : leBytes 6 (field body 0 6) = body.take 6 := by
    have h := leBytes_leNat (body.take 6)
    rwa [List.length_take, Nat.min_eq_left (by omega)] at h
  have hslots : leBytes 1 n = (body.drop 6).take 1 := by
    have h := leBytes_leNat ((body.drop 6).take 1)
    rw [List.length_take, List.length_drop, Nat.min_eq_left (by omega)] at h
    rw [← hcount]
    exact h
  have heach : ∀ b ∈ chunks 3 n (body.drop 7), leBytes 3 (BitVec.ofNat 24 (leNat b) : Sample).toNat = b := by
    intro b hb
    have hb3 := chunks_each 3 n _ (by simp; omega) b hb
    have hlt := leNat_lt b
    rw [hb3] at hlt
    have hfits : leNat b % 2 ^ 24 = leNat b := Nat.mod_eq_of_lt hlt
    rw [BitVec.toNat_ofNat, hfits, ← hb3, leBytes_leNat]
  have hsamples : (((chunks 3 n (body.drop 7)).map fun b => (BitVec.ofNat 24 (leNat b) : Sample)).flatMap fun d =>
      leBytes 3 d.toNat) = body.drop 7 := by
    rw [List.flatMap_map, List.flatMap_congr heach, List.flatMap_id', chunks_flatten, List.take_of_length_le (by simp; omega)]
  rw [lineBody, List.length_map, chunks_length, hindex, hslots, hsamples]
  have hseven : body.take 6 ++ (body.drop 6).take 1 = body.take 7 := (List.take_add (i := 6) (j := 1)).symm
  rw [hseven, List.take_append_drop]

theorem field_append_left {b tail : List Byte} {off len : Nat} (h : off + len ≤ b.length) :
    field (b ++ tail) off len = field b off len := by
  rw [field, field, List.drop_append_of_le_length (by omega), List.take_append_of_le_length (by simp; omega)]

/-- Settles O26: the fields of the bytes in one direction, the bytes of the fields in the other. -/
theorem validFramesAreReadExactly : Obligations.ValidFramesAreReadExactly := by
  unfold Obligations.ValidFramesAreReadExactly
  intro body f
  constructor
  · intro hread
    obtain ⟨hindex, hsome, hfew⟩ := readLineFrame_valid hread
    refine ⟨hindex, hsome, hfew, ?_⟩
    unfold readLineFrame at hread
    dsimp only at hread
    split at hread
    next hvalid =>
      cases hread
      obtain ⟨hone, hmany, hlength, hcheck⟩ := hvalid
      obtain ⟨b, rfl⟩ := checkGood_iff.mp hcheck
      simp only [Config.portSlots] at hmany
      rw [List.length_append, checkBytes_length] at hlength
      rw [field_append_left (by omega)] at hlength hone hmany
      have hcut := chunks_append 3 (field b 6 1) (b.drop 7) (checkBytes b) (by simp; omega)
      rw [field_append_left (by omega), field_append_left (by omega), List.drop_append_of_le_length (by omega), hcut,
        ← lineBody_of_bytes (by omega) (by omega) rfl]
    · cases hread
  · rintro ⟨hindex, hsome, hfew, rfl⟩
    unfold readLineFrame
    rw [field_lineBody_count (by omega), field_lineBody_index hindex]
    dsimp only
    rw [chunks_lineBody]
    refine if_pos ⟨hsome, hfew, ?_, checkGood_append _⟩
    rw [List.length_append, lineBody_length, checkBytes_length]

end Sys2Proof.Machine
end

section
/-! The port events and the line requests by activation state (chapter 2). -/

namespace Sys2Proof.Machine

/-! ### Fronts, counts and changes of one port -/

theorem above_iff {front : Option Nat} {i : Nat} : above front i = true ↔ ∀ g, front = some g → g < i := by
  cases front <;> simp [above]

theorem not_above_iff {front : Option Nat} {i : Nat} :
    ¬ above front i = true ↔ ∃ g, front = some g ∧ i ≤ g := by
  cases front <;> simp [above]

theorem follows_iff {front : Option Nat} {i : Nat} : follows front i = true ↔ front.map (· + 1) = some i := by
  cases front with
  | none => simp [follows]
  | some g =>
    simp only [follows, beq_iff_eq, Option.map_some, Option.some.injEq]
    exact eq_comm

theorem countUp_eq (n : Nat) : countUp n = min (n + 1) 65535 := by
  simp only [countUp, Config.countLimit]
  split <;> omega

section
variable {s : State} {p : Fin 4}

theorem State.updPort_updPort (f g : Port → Port) : (s.updPort p f).updPort p g = s.updPort p fun x => g (f x) := by
  show { s with ports := (s.ports.set p (f s.ports[p])).set p (g (s.ports.set p (f s.ports[p]))[p]) } = _
  rw [table_set_same, Vector.set_set]
  rfl

/-- A notice is posted beside the ports. -/
theorem State.updPort_post (f g : Port → Port) (b : NoticeBody) :
    ((s.updPort p f).post b).updPort p g =
      { (s.updPort p f).post b with ports := s.ports.set p (g (f s.ports[p])) } := by
  unfold State.updPort
  rw [State.post_ports, table_set_same, Vector.set_set]

/-- A port in another activation state, the readiness test applied to every entry (R64). -/
def State.movePort (s : State) (p : Fin 4) (x : Port) : State :=
  { s with ports := s.ports.set p x, sweeps := readied (s.ports.set p x) s.sweeps }

/-- An event that changes the activation state is handed to the readiness test (R64). -/
theorem State.handOff_updPort {f : Port → Port} (h : (f s.ports[p]).state ≠ s.ports[p].state) :
    (s.updPort p f).handOff s p none = s.movePort p (f s.ports[p]) := by
  rw [State.handOff_moved _ _ _ (by rwa [State.updPort_same])]
  rfl

/-! ### Frames in WAKING (R25) -/

theorem State.wakingFrame_cleared {frame : Option LineFrame}
    (h : ∀ f, frame = some f → ¬ above s.ports[p].front f.index = true) :
    s.wakingFrame p frame = (s.updPort p fun x => { x with candidate := none }, none) := by
  cases frame with
  | none => rfl
  | some f => exact if_neg (h f rfl)

theorem State.wakingFrame_candidate {f : LineFrame} (habove : above s.ports[p].front f.index = true)
    (h : ¬ follows s.ports[p].candidate f.index = true) :
    s.wakingFrame p (some f) = (s.updPort p fun x => { x with candidate := some f.index }, none) :=
  (if_pos habove).trans (if_neg h)

theorem State.wakingFrame_lock {f : LineFrame} (habove : above s.ports[p].front f.index = true)
    (h : follows s.ports[p].candidate f.index = true) :
    s.wakingFrame p (some f) =
      ((s.updPort p fun x => (x.written f).enterLocked).post (.lnLock p .wake), some f.index) := by
  refine (if_pos habove).trans ((if_pos h).trans ?_)
  rw [State.writeFrame, State.updPort_updPort]
  rfl

/-! ### Frames in LOCKED (R27 to R29) -/

/-- A port after steps 1 and 2 of a slip event (R28). -/
def Port.slipped (x : Port) : Port := { x.enterSlipped with slipCount := countUp x.slipCount }

theorem State.slip_eq : s.slip p = (s.updPort p Port.slipped).post (.lnSlip p (countUp s.ports[p].slipCount)) := rfl

theorem State.slip_port : (s.slip p).ports[p] = s.ports[p].slipped := by
  rw [State.slip_eq, State.post_ports, State.updPort_same]

theorem State.slipEvent_without {frame : Option LineFrame}
    (h : ∀ f, frame = some f → ¬ above s.ports[p].front f.index = true) :
    s.slipEvent p frame = ((s.slip p).slipThresholdTest p, none) := by
  cases frame with
  | none => rfl
  | some f => exact if_neg (h f rfl)

theorem State.slipEvent_written {f : LineFrame} (h : above s.ports[p].front f.index = true) :
    s.slipEvent p (some f) =
      (((s.slip p).updPort p fun x => { x.written f with chain := true }).slipThresholdTest p, some f.index) := by
  refine (if_pos h).trans ?_
  rw [State.writeFrame, State.updPort_updPort]
  rfl

theorem State.lockedFrame_sequence {f : LineFrame} (h : follows s.ports[p].front f.index = true) :
    s.lockedFrame p (some f) =
      (s.updPort p fun x => { x.written f with absenceTimer := some (absenceMs x.wakeInterval) }, some f.index) := by
  refine (if_pos h).trans ?_
  rw [State.writeFrame, State.updPort_updPort]
  rfl

theorem State.lockedFrame_slip {frame : Option LineFrame}
    (h : ∀ f, frame = some f → ¬ follows s.ports[p].front f.index = true) : s.lockedFrame p frame = s.slipEvent p frame := by
  cases frame with
  | none => rfl
  | some f => exact if_neg (h f rfl)

/-- The threshold test reads the policy and the count alone (R29). -/
theorem State.slipThresholdTest_eq {t : State} {x : Port} (h : t.ports[p] = x) : t.slipThresholdTest p =
    if x.policy.slipThreshold ≠ 0 ∧ x.policy.slipThreshold ≤ x.slipCount then t.handleFault p .slipCount else t := by
  unfold State.slipThresholdTest
  rw [h]

/-! ### Frames in SLIPPED (R30) -/

theorem State.slippedFrame_cleared {frame : Option LineFrame}
    (h : ∀ f, frame = some f → ¬ above s.ports[p].front f.index = true) :
    s.slippedFrame p frame = (s.updPort p fun x => { x with chain := false }, none) := by
  cases frame with
  | none => rfl
  | some f => exact if_neg (h f rfl)

theorem State.slippedFrame_lock {f : LineFrame} (habove : above s.ports[p].front f.index = true)
    (h : (follows s.ports[p].front f.index && s.ports[p].chain) = true) :
    s.slippedFrame p (some f) =
      ((s.updPort p fun x => (x.written f).enterLocked).post (.lnLock p .slip), some f.index) := by
  refine (if_pos habove).trans ((if_pos h).trans ?_)
  rw [State.writeFrame, State.updPort_updPort]
  rfl

theorem State.slippedFrame_written {f : LineFrame} (habove : above s.ports[p].front f.index = true)
    (h : ¬ (follows s.ports[p].front f.index && s.ports[p].chain) = true) :
    s.slippedFrame p (some f) = (s.updPort p fun x => { x.written f with chain := true }, some f.index) := by
  refine (if_pos habove).trans ((if_neg h).trans ?_)
  rw [State.writeFrame, State.updPort_updPort]
  rfl

/-! ### What a frame is handled by -/

theorem State.portFrame_waking (h : s.ports[p].state = .waking) (frame : Option LineFrame) :
    s.portFrame p frame = s.wakingFrame p frame := by
  unfold State.portFrame
  rw [h]

theorem State.portFrame_locked (h : s.ports[p].state = .locked) (frame : Option LineFrame) :
    s.portFrame p frame = s.lockedFrame p frame := by
  unfold State.portFrame
  rw [h]

theorem State.portFrame_slipped (h : s.ports[p].state = .slipped) (frame : Option LineFrame) :
    s.portFrame p frame = s.slippedFrame p frame := by
  unfold State.portFrame
  rw [h]

/-- A change of a port that keeps its activation state and writes nothing is the whole event (R41). -/
theorem State.portEvent_updPort {f : Port → Port} (h : (f s.ports[p]).state = s.ports[p].state) :
    s.portEvent p (s.updPort p f, none) = { s with ports := s.ports.set p (f s.ports[p]) } :=
  s.portEvent_same p (by rw [State.updPort_same, h])

end

/-- Settles O28: the four rows of the locking table by the front and the candidate. -/
theorem wakingFramesSeekALock : Obligations.WakingFramesSeekALock := by
  unfold Obligations.WakingFramesSeekALock
  intro s p body hwaking cand ev
  have hev : ev = .next (s.portEvent p (s.wakingFrame p (readLineFrame body))) := by
    rw [← State.portFrame_waking hwaking]
    exact exec_lineFrame s p body
  rw [hev]
  refine ⟨fun hbad => congrArg Host.Outcome.next ?_, fun f hread => ?_⟩
  · rw [State.wakingFrame_cleared (by simp [hbad])]
    exact State.portEvent_updPort rfl
  rw [hread]
  refine ⟨?below, fun hfront => ?above⟩
  case below =>
    intro hfront
    rw [State.wakingFrame_cleared fun f' hf' => by cases hf'; exact not_above_iff.mpr hfront]
    exact congrArg Host.Outcome.next (State.portEvent_updPort rfl)
  case above =>
    have habove := above_iff.mpr hfront
    refine ⟨fun hcandidate => ?_, fun hcandidate => ?_⟩
    · rw [State.wakingFrame_candidate habove (mt follows_iff.mp hcandidate)]
      exact congrArg Host.Outcome.next (State.portEvent_updPort rfl)
    · rw [State.wakingFrame_lock habove (follows_iff.mpr hcandidate)]
      rfl

/-- Settles O29: a frame in sequence, the slip events without a write, and the one with a write. -/
theorem lockedFramesFollowOrSlip : Obligations.LockedFramesFollowOrSlip := by
  unfold Obligations.LockedFramesFollowOrSlip
  intro s p hlocked written slipped noticed tested
  have hcount := countUp_eq s.ports[p].slipCount
  have hslipped : s.ports[p].slipped = slipped :=
    congrArg (fun n => { s.ports[p].enterSlipped with slipCount := n }) hcount
  have hnoticed : s.slip p = noticed :=
    congrArg₂ (fun x n => State.post { s with ports := s.ports.set p x } (.lnSlip p n)) hslipped hcount
  have htested {x : State} {y : Port} (i : Option Nat) (hy : x.ports[p] = y) (hpolicy : y.policy = s.ports[p].policy)
      (hslips : y.slipCount = min (s.ports[p].slipCount + 1) 65535) :
      s.portEvent p (x.slipThresholdTest p, i) = tested x i := by
    show State.handOff (x.slipThresholdTest p) s p i = _
    rw [State.slipThresholdTest_eq hy, hpolicy, hslips]
  have hslip : s.portEvent p ((s.slip p).slipThresholdTest p, none) = tested noticed none := by
    rw [htested none State.slip_port rfl hcount, hnoticed]
  refine ⟨?absence, ?frames⟩
  case absence =>
    intro htimer
    exact congrArg Host.Outcome.next ((if_pos ⟨hlocked, htimer⟩).trans hslip)
  case frames =>
    intro body ev
    have hev : ev = .next (s.portEvent p (s.lockedFrame p (readLineFrame body))) := by
      rw [← State.portFrame_locked hlocked]
      exact exec_lineFrame s p body
    rw [hev]
    refine ⟨fun hbad => ?bad, fun f g hread hg => ?valid⟩
    case bad =>
      rw [hbad]
      exact congrArg Host.Outcome.next hslip
    case valid =>
      rw [hread]
      refine ⟨fun hnext => ?next, fun hbelow => ?below, fun hbeyond => ?beyond⟩
      case next =>
        rw [State.lockedFrame_sequence (follows_iff.mpr (by rw [hg, hnext]; rfl))]
        rfl
      all_goals
        rw [State.lockedFrame_slip fun f' hf' => by
          cases hf'
          rw [follows_iff, hg, Option.map_some, Option.some.injEq]
          omega]
      case below =>
        rw [State.slipEvent_without fun f' hf' => by cases hf'; exact not_above_iff.mpr ⟨g, hg, hbelow⟩]
        exact congrArg Host.Outcome.next hslip
      case beyond =>
        have habove : above s.ports[p].front f.index = true :=
          above_iff.mpr fun g' hg' => by rw [hg] at hg'; cases hg'; omega
        have hwritten : (s.slip p).updPort p (fun x => { x.written f with chain := true }) =
            { noticed with ports := s.ports.set p { written slipped f with chain := true } } := by
          rw [State.slip_eq, State.updPort_post, ← State.slip_eq, hnoticed, hslipped]
          rfl
        rw [State.slipEvent_written habove, htested (some f.index) (State.updPort_same _ _ _)]
        · rw [hwritten]
        · rw [State.slip_port]
          rfl
        · rw [State.slip_port]
          exact hcount

/-- Settles O30: the five rows of the table by the front and the chain flag. -/
theorem slippedFramesRecoverOrWrite : Obligations.SlippedFramesRecoverOrWrite := by
  unfold Obligations.SlippedFramesRecoverOrWrite
  intro s p body hslipped chained ev
  have hev : ev = .next (s.portEvent p (s.slippedFrame p (readLineFrame body))) := by
    rw [← State.portFrame_slipped hslipped]
    exact exec_lineFrame s p body
  rw [hev]
  refine ⟨fun hbad => ?bad, fun f g hread hg => ?valid⟩
  case bad =>
    rw [State.slippedFrame_cleared (by simp [hbad])]
    exact congrArg Host.Outcome.next (State.portEvent_updPort rfl)
  case valid =>
    rw [hread]
    have habove (h : g < f.index) : above s.ports[p].front f.index = true :=
      above_iff.mpr fun g' hg' => by rw [hg] at hg'; cases hg'; exact h
    have hfollows : follows s.ports[p].front f.index = true ↔ g + 1 = f.index := by
      rw [follows_iff, hg, Option.map_some, Option.some.injEq]
    intro written
    refine ⟨fun hbelow => ?below, fun hnext => ?next, fun hbeyond => ?beyond⟩
    case below =>
      rw [State.slippedFrame_cleared fun f' hf' => by cases hf'; exact not_above_iff.mpr ⟨g, hg, hbelow⟩]
      exact congrArg Host.Outcome.next (State.portEvent_updPort rfl)
    case next =>
      obtain ⟨hindex, hchain⟩ := hnext
      rw [State.slippedFrame_lock (habove (by omega)) (by rw [hfollows.mpr hindex.symm, hchain]; rfl)]
      rfl
    case beyond =>
      obtain ⟨hlt, hother⟩ := hbeyond
      have hnot : ¬ (follows s.ports[p].front f.index && s.ports[p].chain) = true := by
        rw [Bool.and_eq_true, hfollows]
        rintro ⟨hindex, hchain⟩
        obtain hfar | hclear := hother
        · omega
        · rw [hclear] at hchain
          cases hchain
      rw [State.slippedFrame_written (habove hlt) hnot]
      rfl

/-! ### Fault handling (R32 to R34) -/

theorem Port.mayRetry_iff {x : Port} : x.mayRetry = true ↔ ∀ n, x.policy.retryLimit = some n → x.retriesUsed < n := by
  unfold Port.mayRetry
  cases x.policy.retryLimit <;> simp

section
variable {s : State} {p : Fin 4} {c : FaultCause}

theorem State.handleFault_latch (h : s.ports[p].policy.faultMode = .latch) : s.handleFault p c = s.faultLatch p c := by
  unfold State.handleFault
  rw [h]

theorem State.handleFault_retry (h : s.ports[p].policy.faultMode = .retry) (hmore : s.ports[p].mayRetry = true) :
    s.handleFault p c = s.faultRetry p c := by
  unfold State.handleFault
  rw [h]
  exact if_pos hmore

theorem State.handleFault_exhausted (h : s.ports[p].policy.faultMode = .retry) (hmore : ¬ s.ports[p].mayRetry = true) :
    s.handleFault p c = s.faultLatch p c := by
  unfold State.handleFault
  rw [h]
  exact if_neg hmore

theorem State.handleFault_report (h : s.ports[p].policy.faultMode = .report) :
    s.handleFault p c = s.faultReport p c := by
  unfold State.handleFault
  rw [h]

/-- The check that fired, field by field (R34). -/
theorem Port.rearm_eq (x : Port) (c : FaultCause) : x.rearm c =
    { x with
      wakeTimer := if c = .noWake then some 2000 else x.wakeTimer
      slipCount := if c = .slipCount then 0 else x.slipCount
      slipTimer := if c = .slipTime then some x.policy.slipLimit else x.slipTimer } := by
  cases c <;> rfl

theorem State.faultReport_eq : s.faultReport p c = State.post
    { s with
      ports := s.ports.set p
        { s.ports[p] with
          wakeTimer := if c = .noWake then some 2000 else s.ports[p].wakeTimer
          slipCount := if c = .slipCount then 0 else s.ports[p].slipCount
          slipTimer := if c = .slipTime then some s.ports[p].policy.slipLimit else s.ports[p].slipTimer } }
    (.lnFault p c .reported) := by
  rw [← Port.rearm_eq]
  rfl

theorem State.faultRetry_eq : s.faultRetry p c = State.post
    { s with
      ports := s.ports.set p
        { s.ports[p].quietened with
          state := .retryWait, retriesUsed := min (s.ports[p].retriesUsed + 1) 65535
          retryTimer := some s.ports[p].policy.retryWait } }
    (.lnFault p c (.retrying (min (s.ports[p].retriesUsed + 1) 65535))) := by
  rw [← countUp_eq]
  rfl

/-- REPORT keeps the activation state (R34). -/
theorem State.faultReport_state : (s.faultReport p c).ports[p].state = s.ports[p].state := by
  rw [State.faultReport, State.post_ports, State.updPort_same]
  cases c <;> rfl

/-- Both expiries that run fault handling are its event (R26, R31). -/
theorem exec_faultExpiry {i : Instr}
    (h : (c = .noWake ∧ i = .wakeTimerExpiry p ∧ s.ports[p].state = .waking ∧ s.ports[p].wakeTimer.isSome = true) ∨
      (c = .slipTime ∧ i = .slipTimerExpiry p ∧ s.ports[p].state = .slipped ∧ s.ports[p].slipTimer.isSome = true)) :
    exec i s = .next ((s.handleFault p c).handOff s p none) := by
  obtain ⟨rfl, rfl, hstate, htimer⟩ | ⟨rfl, rfl, hstate, htimer⟩ := h
  · exact congrArg Host.Outcome.next (if_pos ⟨hstate, htimer⟩)
  · exact congrArg Host.Outcome.next (if_pos ⟨hstate, htimer⟩)

end

/-- Settles O31: fault handling by mode, and the expiries as its event. -/
theorem wakeAndSlipExpiriesRunFaultHandling : Obligations.WakeAndSlipExpiriesRunFaultHandling := by
  unfold Obligations.WakeAndSlipExpiriesRunFaultHandling
  refine ⟨?handling, ?expiries⟩
  case handling =>
    intro s p c quiet latched used more
    have hmore : s.ports[p].mayRetry = true ↔ more := Port.mayRetry_iff
    exact ⟨fun hlatch => State.handleFault_latch hlatch,
      fun ⟨hretry, hnone⟩ => State.handleFault_exhausted hretry (mt hmore.mp hnone),
      fun ⟨hretry, hleft⟩ => (State.handleFault_retry hretry (hmore.mpr hleft)).trans State.faultRetry_eq,
      fun hreport => (State.handleFault_report hreport).trans State.faultReport_eq⟩
  case expiries =>
    intro s p c i hcause quiet latched used more
    have hmore : s.ports[p].mayRetry = true ↔ more := Port.mayRetry_iff
    rw [exec_faultExpiry hcause]
    refine ⟨fun hlatch => ?_, fun ⟨hretry, hnone⟩ => ?_, fun ⟨hretry, hleft⟩ => ?_, fun hreport => ?_⟩
    · rw [State.handleFault_latch hlatch]
      rfl
    · rw [State.handleFault_exhausted hretry (mt hmore.mp hnone)]
      rfl
    · rw [State.handleFault_retry hretry (hmore.mpr hleft), State.faultRetry_eq]
      rfl
    · have hcount : c ≠ .slipCount := by
        rintro rfl
        obtain ⟨h, -⟩ | ⟨h, -⟩ := hcause <;> cases h
      rw [State.handleFault_report hreport, State.handOff_same _ _ _ State.faultReport_state, State.faultReport_eq,
        if_neg hcount]

/-! ### Retry and drain expiries (R33, R36) -/

theorem State.park_handOff {s : State} {p : Fin 4} (h : s.ports[p].state = .draining) :
    s.portEvent p (s.park p, none) = { s.park p with sweeps := readied (s.park p).ports s.sweeps } := by
  have hmoved : (s.park p).ports[p].state ≠ s.ports[p].state := by
    rw [State.park, State.post_ports, State.updPort_same, h]
    exact nofun
  have hsweeps : (s.park p).sweeps = s.sweeps := by rw [State.park, State.post_sweeps, State.updPort_sweeps]
  show (s.park p).handOff s p none = _
  rw [State.handOff_moved _ _ _ hmoved, ← hsweeps]
  rfl

/-- Settles O32: each expiry changes the activation state, so the readiness test follows. -/
theorem retryAndDrainExpiries : Obligations.RetryAndDrainExpiries := by
  unfold Obligations.RetryAndDrainExpiries
  intro s p quiet parked
  refine ⟨fun ⟨hretry, htimer⟩ => ?_, fun ⟨hdraining, htimer⟩ => ?_, fun ⟨hdraining, htimer⟩ => ?_⟩
  · intro woken
    refine congrArg Host.Outcome.next ((if_pos ⟨hretry, htimer⟩).trans ?_)
    exact State.handOff_updPort (f := fun x => x.enterWaking s.interval) (by rw [hretry]; exact nofun)
  · exact congrArg Host.Outcome.next ((if_pos ⟨hdraining, htimer⟩).trans (State.park_handOff hdraining))
  · exact congrArg Host.Outcome.next ((if_pos ⟨hdraining, htimer⟩).trans (State.park_handOff hdraining))

/-! ### The line requests (R24, R35, R37, R38) -/

section
variable {s : State} {p : Fin 4}

theorem lnactAt_wakes (h : s.ports[p].state = .off ∨ s.ports[p].state = .retryWait) :
    lnactAt s p = takenOk (s.movePort p { s.ports[p].enterWaking s.interval with retriesUsed := 0 }) := by
  have hmoved : PortState.waking ≠ s.ports[p].state := by
    obtain h | h := h <;> rw [h] <;> exact nofun
  rw [← State.handOff_updPort (f := fun x => { x.enterWaking s.interval with retriesUsed := 0 }) hmoved]
  unfold lnactAt
  obtain h | h := h <;> rw [h]

theorem lnactAt_waking (h : s.ports[p].state = .waking) : lnactAt s p = takenOk s := by
  unfold lnactAt
  rw [h]

theorem lnactAt_refused (h : s.ports[p].state ∈ [.locked, .slipped, .draining, .parked, .fault]) :
    lnactAt s p = refuse s .state := by
  unfold lnactAt
  simp only [List.mem_cons, List.not_mem_nil, or_false] at h
  obtain h | h | h | h | h := h <;> rw [h]

theorem lndeactAt_drains (h : s.ports[p].state ∈ [.waking, .locked, .slipped]) :
    lndeactAt s p = takenOk (s.movePort p s.ports[p].enterDraining) := by
  simp only [List.mem_cons, List.not_mem_nil, or_false] at h
  have hmoved : PortState.draining ≠ s.ports[p].state := by
    obtain h | h | h := h <;> rw [h] <;> exact nofun
  rw [← State.handOff_updPort (f := Port.enterDraining) hmoved]
  unfold lndeactAt
  obtain h | h | h := h <;> rw [h]

theorem lndeactAt_refused (h : s.ports[p].state ∈ [.off, .draining, .parked, .retryWait, .fault]) :
    lndeactAt s p = refuse s .state := by
  unfold lndeactAt
  simp only [List.mem_cons, List.not_mem_nil, or_false] at h
  obtain h | h | h | h | h := h <;> rw [h]

theorem lnconfAt_parked (h : s.ports[p].state = .parked) :
    lnconfAt s p = takenOk (s.movePort p { s.ports[p] with state := .off }) := by
  have hmoved : PortState.off ≠ s.ports[p].state := by
    rw [h]
    exact nofun
  rw [← State.handOff_updPort (f := fun x => { x with state := .off }) hmoved]
  unfold lnconfAt
  rw [h]

theorem lnconfAt_refused (h : s.ports[p].state ≠ .parked) : lnconfAt s p = refuse s .state := by
  unfold lnconfAt
  cases hstate : s.ports[p].state with
  | parked => exact absurd hstate h
  | _ => rfl

theorem lnresetAt_moved (h : s.ports[p].state ≠ .off) : lnresetAt s p = takenOk (s.movePort p s.ports[p].lineReset) :=
  congrArg takenOk (State.handOff_updPort (f := Port.lineReset) h.symm)

theorem lnresetAt_off (h : s.ports[p].state = .off) :
    lnresetAt s p = takenOk { s with ports := s.ports.set p s.ports[p].lineReset } :=
  congrArg takenOk (s.portEvent_updPort (f := Port.lineReset) h.symm)

end

/-- A request of one port byte that its port takes. -/
theorem take_onPort {s t : State} {k : Byte} {ak : AddressKind} {p : Fin 4} {f : State → Fin 4 → Reply}
    (h : s.Taking { kind := k, payload := [byteOf p.val], ak := ak }) (hp : payloadSuits k [byteOf p.val] = true)
    (ho : f s.dequeue p = takenOk t) (hc : t.cmd = s.dequeue.cmd) :
    s.take { kind := k, payload := [byteOf p.val], ak := ak } (fun s => onPort [byteOf p.val] s (f s)) =
      { t with cmd := s.cmd.taken { kind := k, payload := [byteOf p.val], ak := ak } .ok [] } :=
  State.take_ok h hp ((onPort_eq p _ _).trans ho) hc

/-- A request of one port byte that its port refuses STATE. -/
theorem take_onPort_refused {s : State} {k : Byte} {ak : AddressKind} {p : Fin 4} {f : State → Fin 4 → Reply}
    (h : s.Taking { kind := k, payload := [byteOf p.val], ak := ak }) (hp : payloadSuits k [byteOf p.val] = true)
    (ho : f s.dequeue p = refuse s.dequeue .state) :
    s.take { kind := k, payload := [byteOf p.val], ak := ak } (fun s => onPort [byteOf p.val] s (f s)) =
      s.refusing { kind := k, payload := [byteOf p.val], ak := ak } .state [] :=
  State.take_refused h hp nofun ((onPort_eq p _ _).trans ho)

/-- A request of one port byte above 3 is refused RANGE. -/
theorem take_onPort_out {s : State} {k : Byte} {ak : AddressKind} {b : Byte} {f : State → Fin 4 → Reply} (hb : 3 < b.toNat)
    (hp : payloadSuits k [b] = true) (h : s.Taking { kind := k, payload := [b], ak := ak }) :
    s.take { kind := k, payload := [b], ak := ak } (fun s => onPort [b] s (f s)) =
      s.refusing { kind := k, payload := [b], ak := ak } .range [] := by
  have hfield : field [b] 0 1 = b.toNat := leNat_singleton b
  exact State.take_refused h hp nofun (onPort_out (hfield ▸ hb) _ _)

/-- Settles O25: each request in each activation state, the readiness test where the state changed. -/
theorem lineRequestsByActivationState : Obligations.LineRequestsByActivationState := by
  unfold Obligations.LineRequestsByActivationState
  refine ⟨?ports, ?range⟩
  case ports =>
    intro s ak p pay quiet moved
    refine ⟨fun htaking => ⟨fun hidle => ?_, fun hwaking => ?_, fun hother => ?_⟩,
      fun htaking => ⟨fun hactive => ?_, fun hother => ?_⟩, fun htaking => ⟨fun hparked => ?_, fun hother => ?_⟩,
      fun htaking => ⟨fun hmoved => ?_, fun hoff => ?_⟩⟩
    · exact congrArg Host.Outcome.next (take_onPort (f := lnactAt) htaking rfl (lnactAt_wakes hidle) rfl)
    · exact congrArg Host.Outcome.next (take_onPort (f := lnactAt) (t := s.dequeue) htaking rfl (lnactAt_waking hwaking) rfl)
    · exact congrArg Host.Outcome.next (take_onPort_refused (f := lnactAt) htaking rfl (lnactAt_refused hother))
    · exact congrArg Host.Outcome.next (take_onPort (f := lndeactAt) htaking rfl (lndeactAt_drains hactive) rfl)
    · exact congrArg Host.Outcome.next (take_onPort_refused (f := lndeactAt) htaking rfl (lndeactAt_refused hother))
    · exact congrArg Host.Outcome.next (take_onPort (f := lnconfAt) htaking rfl (lnconfAt_parked hparked) rfl)
    · exact congrArg Host.Outcome.next (take_onPort_refused (f := lnconfAt) htaking rfl (lnconfAt_refused hother))
    · exact congrArg Host.Outcome.next (take_onPort (f := lnresetAt) htaking rfl (lnresetAt_moved hmoved) rfl)
    · exact congrArg Host.Outcome.next (take_onPort (f := lnresetAt) htaking rfl (lnresetAt_off hoff) rfl)
  case range =>
    intro s ak b hb refused
    exact ⟨fun htaking => congrArg Host.Outcome.next (take_onPort_out (f := lnactAt) hb rfl htaking),
      fun htaking => congrArg Host.Outcome.next (take_onPort_out (f := lndeactAt) hb rfl htaking),
      fun htaking => congrArg Host.Outcome.next (take_onPort_out (f := lnconfAt) hb rfl htaking),
      fun htaking => congrArg Host.Outcome.next (take_onPort_out (f := lnresetAt) hb rfl htaking)⟩

end Sys2Proof.Machine
end

section
/-! The reference requests and the announcement of a sweep (chapters 3 and 4). -/

namespace Sys2Proof.Machine

/-! ### The slot report -/

/-- The report of a slot, as every reference request answers it (R50, R195). -/
def RefSlot.report (x : RefSlot) (i : Fin 8) : List Byte :=
  leBytes 1 i.val ++ [codeByte slotStateList x.state] ++ leBytes 2 (x.declared.getD 0) ++ leBytes 2 x.samples.length ++
    leBytes 1 x.useCount

section
variable {s : State} {i : Fin 8} {p : List Byte} {k : Byte} {ak : AddressKind} {f : State → Fin 8 → Reply}

theorem reported_eq (res : Result) : reported s i res = { state := s, result := res, payload := s.slots[i].report i } := rfl

theorem reported_updSlot (g : RefSlot → RefSlot) : reported (s.updSlot i g) i .ok =
    { state := s.updSlot i g, result := .ok, payload := (g s.slots[i]).report i } := by
  rw [reported_eq, State.updSlot_same]

theorem onSlot_of_field (h : field p 0 1 = i.val) (f : Fin 8 → Reply) : onSlot p s f = f i := by
  have hi : field p 0 1 < 8 := h ▸ i.isLt
  unfold onSlot
  rw [dif_pos hi]
  exact congrArg f (Fin.ext h)

theorem onSlot_out (h : 7 < field p 0 1) (f : Fin 8 → Reply) : onSlot p s f = refuse s .range := dif_neg (by omega)

/-- A reference request that its slot takes changes the slot alone and answers with its report (R50). -/
theorem take_onSlot (g : RefSlot → RefSlot) (hfield : field p 0 1 = i.val)
    (htaking : s.Taking { kind := k, payload := p, ak := ak }) (hsuits : payloadSuits k p = true)
    (hat : f s.dequeue i = reported (s.dequeue.updSlot i g) i .ok) :
    s.take { kind := k, payload := p, ak := ak } (fun s => onSlot p s (f s)) =
      { s with
        slots := s.slots.set i (g s.slots[i])
        cmd := s.cmd.taken { kind := k, payload := p, ak := ak } .ok ((g s.slots[i]).report i) } :=
  State.take_ok (t := s.dequeue.updSlot i g) htaking hsuits
    ((onSlot_of_field hfield _).trans (hat.trans (reported_updSlot g))) rfl

theorem take_onSlot_refused {res : Result} (hres : res ≠ .ok) (hfield : field p 0 1 = i.val)
    (htaking : s.Taking { kind := k, payload := p, ak := ak }) (hsuits : payloadSuits k p = true)
    (hat : f s.dequeue i = reported s.dequeue i res) :
    s.take { kind := k, payload := p, ak := ak } (fun s => onSlot p s (f s)) =
      s.refusing { kind := k, payload := p, ak := ak } res (s.slots[i].report i) :=
  State.take_refused htaking hsuits hres ((onSlot_of_field hfield _).trans hat)

theorem take_onSlot_out (hslot : 7 < field p 0 1) (htaking : s.Taking { kind := k, payload := p, ak := ak })
    (hsuits : payloadSuits k p = true) :
    s.take { kind := k, payload := p, ak := ak } (fun s => onSlot p s (f s)) =
      s.refusing { kind := k, payload := p, ak := ak } .range [] :=
  State.take_refused htaking hsuits nofun (onSlot_out hslot _)

theorem field_byteOf_slot (i : Fin 8) : field [byteOf i.val] 0 1 = i.val := by
  show (byteOf i.val).toNat + 256 * 0 = i.val
  simp only [byteOf, BitVec.toNat_ofNat]
  omega

end

/-! ### REFOPEN, REFCLOSE and REFCLEAR (R45, R48, R49) -/

section
variable {s : State} {i : Fin 8} {p : List Byte}

theorem field_refopenPayload_slot (i : Fin 8) (n : Nat) : field (refopenPayload i.val n) 0 1 = i.val := by
  rw [refopenPayload, field_leBytes (by omega)]

theorem field_refopenPayload_length (i : Fin 8) {n : Nat} (h : n < 65536) : field (refopenPayload i.val n) 1 2 = n := by
  rw [refopenPayload, field_skip (o := 0) (by simp), field_all (by simp), leNat_leBytes h]

theorem refopenAt_range (h : field p 1 2 < 256 ∨ 16384 < field p 1 2) : refopenAt p s i = reported s i .range := if_pos h

theorem refopenAt_busy (h : ¬ (field p 1 2 < 256 ∨ 16384 < field p 1 2))
    (hbusy : s.slots[i].state = .loading ∨ (s.slots[i].state = .ready ∧ 0 < s.slots[i].useCount)) :
    refopenAt p s i = reported s i .busy := by
  refine (if_neg h).trans ?_
  split
  · rfl
  next hloading => exact if_pos (hbusy.resolve_left hloading)

theorem refopenAt_opens (h : ¬ (field p 1 2 < 256 ∨ 16384 < field p 1 2))
    (hfree : s.slots[i].state = .empty ∨ (s.slots[i].state = .ready ∧ s.slots[i].useCount = 0)) :
    refopenAt p s i =
      reported (s.updSlot i fun x => { x with state := .loading, declared := some (field p 1 2), samples := [] }) i .ok := by
  have hloading : s.slots[i].state ≠ .loading := by
    rintro hl
    rw [hl] at hfree
    obtain h | ⟨h, -⟩ := hfree <;> cases h
  have hused : ¬ (s.slots[i].state = .ready ∧ 0 < s.slots[i].useCount) := by
    rintro ⟨hready, hpos⟩
    obtain h | ⟨-, h⟩ := hfree
    · rw [h] at hready
      cases hready
    · omega
  exact (if_neg h).trans ((if_neg hloading).trans (if_neg hused))

theorem refcloseAt_state (h : s.slots[i].state = .empty ∨ s.slots[i].state = .ready) :
    refcloseAt s i = reported s i .state := by
  unfold refcloseAt
  obtain h | h := h <;> rw [h]

theorem refcloseAt_closes (h : s.slots[i].state = .loading) (hfull : s.slots[i].declared = some s.slots[i].samples.length) :
    refcloseAt s i = reported (s.updSlot i fun x => { x with state := .ready, useCount := 0 }) i .ok := by
  unfold refcloseAt
  rw [h]
  exact if_pos hfull

theorem refcloseAt_short (h : s.slots[i].state = .loading) (hshort : s.slots[i].declared ≠ some s.slots[i].samples.length) :
    refcloseAt s i = reported s i .short := by
  unfold refcloseAt
  rw [h]
  exact if_neg hshort

theorem refclearAt_busy (h : 0 < s.slots[i].useCount) : refclearAt s i = reported s i .busy := if_pos h

theorem refclearAt_clears (h : s.slots[i].useCount = 0) :
    refclearAt s i = reported (s.updSlot i fun _ => RefSlot.reset) i .ok := if_neg (by omega)

end

/-! ### REFDATA (R46, R47) -/

section
variable {s : State} {i : Fin 8} {p : List Byte}

/-- The offset and the count of a REFDATA lie in their columns (R47). -/
def refdataInRange (p : List Byte) : Prop := field p 1 2 ≤ 16383 ∧ 1 ≤ field p 3 2 ∧ field p 3 2 ≤ 256

theorem refdataAt_outOfRange (h : ¬ refdataInRange p) : refdataAt p s i = reported s i .range :=
  if_pos (by unfold refdataInRange at h; omega)

/-- Past the first refusal. -/
theorem refdataAt_inRange (h : refdataInRange p) : refdataAt p s i =
    if s.slots[i].state ≠ .loading then reported s i .state
    else if field p 1 2 ≠ s.slots[i].loaded then reported s i .order
    else if s.slots[i].declared.getD 0 < field p 1 2 + field p 3 2 then reported s i .range
    else reported (s.updSlot i fun x => { x with samples := x.samples ++ readRefSamples p }) i .ok :=
  if_neg (by unfold refdataInRange at h; omega)

theorem refdataAt_adds (h : refdataInRange p) (hloading : s.slots[i].state = .loading)
    (horder : field p 1 2 = s.slots[i].samples.length)
    (hroom : field p 1 2 + field p 3 2 ≤ s.slots[i].declared.getD 0) :
    refdataAt p s i = reported (s.updSlot i fun x => { x with samples := x.samples ++ readRefSamples p }) i .ok :=
  (refdataAt_inRange h).trans ((if_neg (not_not.mpr hloading)).trans ((if_neg (not_not.mpr horder)).trans
    (if_neg (Nat.not_lt.mpr hroom))))

theorem field_refdataPayload_slot (i : Fin 8) (offset : Nat) (rs : List RefSample) :
    field (refdataPayload i.val offset rs) 0 1 = i.val := by
  simp only [refdataPayload, List.append_assoc]
  exact field_leBytes (by omega)

theorem payloadSuits_refdata (h : p.length = 5 + 2 * field p 3 2) : payloadSuits 11#8 p = true := by
  simp [payloadSuits, ← h]
  omega

end

/-- Settles O33: each request at its slot, taken or refused, with the report of the slot. -/
theorem referenceRequestsChangeTheirSlot : Obligations.ReferenceRequestsChangeTheirSlot := by
  unfold Obligations.ReferenceRequestsChangeTheirSlot
  refine ⟨?slots, ?range⟩
  case slots =>
    intro s ak i report done
    refine ⟨fun n hmin hmax hfree htaking => congrArg Host.Outcome.next ?opens,
      fun rs n hsome hfew hloading hdeclared hroom hmax htaking => congrArg Host.Outcome.next ?data,
      fun hloading hfull htaking => congrArg Host.Outcome.next ?closes,
      fun hunused htaking => congrArg Host.Outcome.next ?clears, ?refused⟩
    case opens =>
      have hlength : field (refopenPayload i.val n) 1 2 = n := field_refopenPayload_length i (by omega)
      have hat := refopenAt_opens (s := s.dequeue) (i := i) (p := refopenPayload i.val n) (by omega) hfree
      rw [hlength] at hat
      exact take_onSlot (f := refopenAt (refopenPayload i.val n))
        (fun x => { x with state := .loading, declared := some n, samples := [] })
        (field_refopenPayload_slot i n) htaking (by simp [payloadSuits, refopenPayload]) hat
    case data =>
      obtain ⟨hoffset, hcount, hread, hlength⟩ :=
        refdataPayload_read i s.slots[i].samples.length rs (by omega) (by omega)
      have hinRange : refdataInRange (refdataPayload i.val s.slots[i].samples.length rs) := by
        unfold refdataInRange
        omega
      have hat := refdataAt_adds (s := s.dequeue) hinRange hloading hoffset (by
        rw [State.dequeue_slots, hdeclared, hoffset, hcount]
        exact hroom)
      rw [hread] at hat
      exact take_onSlot (f := refdataAt (refdataPayload i.val s.slots[i].samples.length rs))
        (fun x => { x with samples := x.samples ++ rs }) (field_refdataPayload_slot i _ rs) htaking
        (payloadSuits_refdata (by rw [hlength, hcount])) hat
    case closes =>
      exact take_onSlot (f := refcloseAt) (fun x => { x with state := .ready, useCount := 0 }) (field_byteOf_slot i) htaking
        rfl (refcloseAt_closes hloading hfull)
    case clears =>
      exact take_onSlot (f := refclearAt) (fun _ => RefSlot.reset) (field_byteOf_slot i) htaking rfl
        (refclearAt_clears hunused)
    case refused =>
      intro refused
      refine ⟨fun n hn htaking => ?_, fun htaking => ⟨fun hstate => congrArg Host.Outcome.next ?_,
        fun n hloading hdeclared hshort => congrArg Host.Outcome.next ?_⟩,
        fun hused htaking => congrArg Host.Outcome.next ?_⟩
      · have hlength := field_refopenPayload_length i hn
        have hslot := field_refopenPayload_slot i n
        have hsuits : payloadSuits 10#8 (refopenPayload i.val n) = true := by simp [payloadSuits, refopenPayload]
        refine ⟨fun hrange => congrArg Host.Outcome.next ?_, fun hmin hmax hbusy => congrArg Host.Outcome.next ?_⟩
        · exact take_onSlot_refused (f := refopenAt (refopenPayload i.val n)) (res := .range) nofun hslot htaking hsuits
            (refopenAt_range (by omega))
        · exact take_onSlot_refused (f := refopenAt (refopenPayload i.val n)) (res := .busy) nofun hslot htaking hsuits
            (refopenAt_busy (by omega) hbusy)
      · exact take_onSlot_refused (f := refcloseAt) (res := .state) nofun (field_byteOf_slot i) htaking rfl
          (refcloseAt_state hstate)
      · have hnot : s.slots[i].declared ≠ some s.slots[i].samples.length := by
          rw [hdeclared, Ne, Option.some.injEq]
          omega
        exact take_onSlot_refused (f := refcloseAt) (res := .short) nofun (field_byteOf_slot i) htaking rfl
          (refcloseAt_short hloading hnot)
      · exact take_onSlot_refused (f := refclearAt) (res := .busy) nofun (field_byteOf_slot i) htaking rfl
          (refclearAt_busy hused)
  case range =>
    intro s ak p hslot refused
    exact ⟨fun hlength htaking => congrArg Host.Outcome.next (take_onSlot_out (f := refopenAt p) hslot htaking
        (by simp [payloadSuits, hlength])),
      fun hlength htaking => congrArg Host.Outcome.next (take_onSlot_out (f := refcloseAt) hslot htaking
        (by simp [payloadSuits, hlength])),
      fun hlength htaking => congrArg Host.Outcome.next (take_onSlot_out (f := refclearAt) hslot htaking
        (by simp [payloadSuits, hlength]))⟩

/-- Settles O34: the four refusals in their order. -/
theorem refdataIsRefusedInOrder : Obligations.RefdataIsRefusedInOrder := by
  unfold Obligations.RefdataIsRefusedInOrder
  refine ⟨fun s ak p hlength hslot htaking => ?_, ?_⟩
  · exact congrArg Host.Outcome.next (take_onSlot_out (f := refdataAt p) hslot htaking (payloadSuits_refdata hlength))
  · intro s ak i offset rs hoffset hcount htaking refused ev inRange
    obtain ⟨hoff, hlen, -, hlength⟩ := refdataPayload_read i offset rs hcount hoffset
    have hrange : refdataInRange (refdataPayload i.val offset rs) ↔ inRange := by
      unfold refdataInRange
      rw [hoff, hlen]
    have hrefused {res : Result} (hres : res ≠ .ok)
        (hat : refdataAt (refdataPayload i.val offset rs) s.dequeue i = reported s.dequeue i res) : ev = .next (refused res) :=
      congrArg Host.Outcome.next (take_onSlot_refused (f := refdataAt (refdataPayload i.val offset rs)) hres
        (field_refdataPayload_slot i offset rs) htaking (payloadSuits_refdata (by rw [hlength, hlen])) hat)
    refine ⟨fun hout => hrefused nofun (refdataAt_outOfRange (mt hrange.mp hout)), fun hin hstate => hrefused nofun ?_,
      fun hin hloading horder => hrefused nofun ?_, fun hin hloading horder hpast => hrefused nofun ?_⟩
    all_goals rw [refdataAt_inRange (hrange.mpr hin), hoff, hlen]
    · exact if_pos hstate
    · exact (if_neg (not_not.mpr hloading)).trans (if_pos horder)
    · exact (if_neg (not_not.mpr hloading)).trans ((if_neg (not_not.mpr horder)).trans (if_pos hpast))

/-! ### The announcement of a sweep (R57 to R61) -/

section
variable {a : Announcement}

theorem referenceFields_length (r : Reference) : (referenceFields r).length = 4 := by
  cases r <;> simp [referenceFields]

theorem swannPayload_length : (swannPayload a).length = 21 := by
  simp [swannPayload, referenceFields_length]

section
variable {tail : List Byte}

theorem field_swannPayload_tag (h : a.tag < 65536) : field (swannPayload a) 0 2 = a.tag := by
  simp only [swannPayload, List.append_assoc]
  exact field_leBytes h

theorem field_swannPayload_vp (h : a.vp < 4294967296) : field (swannPayload a) 2 4 = a.vp := by
  simp only [swannPayload, List.append_assoc]
  rw [field_skip (o := 0) (by simp)]
  exact field_leBytes h

theorem field_swannPayload_number (h : a.number < 256) : field (swannPayload a) 6 1 = a.number := by
  simp only [swannPayload, List.append_assoc]
  rw [field_skip (o := 4) (by simp), field_skip (o := 0) (by simp)]
  exact field_leBytes h

theorem field_swannPayload_start (h : a.start < 18446744073709551616) : field (swannPayload a) 7 8 = a.start := by
  simp only [swannPayload, List.append_assoc]
  rw [field_skip (o := 5) (by simp), field_skip (o := 1) (by simp), field_skip (o := 0) (by simp)]
  exact field_leBytes h

theorem field_swannPayload_length (h : a.length < 65536) : field (swannPayload a) 15 2 = a.length := by
  simp only [swannPayload, List.append_assoc]
  rw [field_skip (o := 13) (by simp), field_skip (o := 9) (by simp), field_skip (o := 8) (by simp),
    field_skip (o := 0) (by simp)]
  exact field_leBytes h

theorem field_swannPayload_reference (off len : Nat) :
    field (swannPayload a) (17 + off) len = field (referenceFields a.reference) off len := by
  rw [swannPayload, field_skip (o := off) (by simp)]

end

/-- A reference whose shift fits its byte is read back (R195). -/
theorem readReference_fields {r r' : Reference} (hshift : ∀ c shift, r = .pilot c shift → shift < 256)
    (h : (field (referenceFields r) 0 1 = 0 ∧ ∃ h : field (referenceFields r) 1 2 < 8, r' = .slot ⟨_, h⟩) ∨
      (field (referenceFields r) 0 1 = 1 ∧ ∃ h : field (referenceFields r) 1 2 < 480,
        r' = .pilot ⟨_, h⟩ (field (referenceFields r) 3 1))) : r' = r := by
  cases r with
  | slot i =>
    have hkind : field (referenceFields (.slot i)) 0 1 = 0 := rfl
    have htarget : field (referenceFields (.slot i)) 1 2 = i.val := by
      simp only [referenceFields, List.append_assoc]
      rw [field_skip (o := 0) (by simp)]
      exact field_leBytes (by omega)
    rw [hkind] at h
    obtain ⟨-, hlt, rfl⟩ | ⟨hone, -⟩ := h
    · exact congrArg Reference.slot (Fin.ext htarget)
    · cases hone
  | pilot c shift =>
    have hkind : field (referenceFields (.pilot c shift)) 0 1 = 1 := rfl
    have htarget : field (referenceFields (.pilot c shift)) 1 2 = c.val := by
      simp only [referenceFields, List.append_assoc]
      rw [field_skip (o := 0) (by simp)]
      exact field_leBytes (by omega)
    have hread : field (referenceFields (.pilot c shift)) 3 1 = shift := by
      rw [referenceFields, field_skip (o := 0) (by simp), field_all (by simp), leNat_leBytes (hshift c shift rfl)]
    rw [hkind] at h
    obtain ⟨hzero, -⟩ | ⟨-, hlt, rfl⟩ := h
    · cases hzero
    · rw [hread]
      exact congrArg (Reference.pilot · shift) (Fin.ext htarget)

/-- What is read of a SWANN is what it was written from, where each field fits its bytes (R195). -/
theorem readAnnouncement_payload (htag : a.tag < 65536) (hvp : a.vp < 4294967296) (hnumber : a.number < 256)
    (hstart : a.start < 18446744073709551616) (hlength : a.length < 65536)
    (hshift : ∀ c shift, a.reference = .pilot c shift → shift < 256) {b : Announcement}
    (h : readAnnouncement (swannPayload a) = some b) : b = a := by
  obtain ⟨h1, h2, h3, h4, h5, h6⟩ := readAnnouncement_eq_some _ _ h
  rw [field_swannPayload_tag htag] at h1
  rw [field_swannPayload_vp hvp] at h2
  rw [field_swannPayload_number hnumber] at h3
  rw [field_swannPayload_start hstart] at h4
  rw [field_swannPayload_length hlength] at h5
  have hreference : b.reference = a.reference := by
    refine readReference_fields hshift ?_
    simpa only [← field_swannPayload_reference] using h6
  obtain ⟨tag, vp, number, start, length, reference⟩ := b
  obtain ⟨tag', vp', number', start', length', reference'⟩ := a
  cases h1; cases h2; cases h3; cases h4; cases h5; cases hreference
  rfl

end

theorem swannRefusal_dequeue (s : State) (p : List Byte) : swannRefusal s.dequeue p = swannRefusal s p := rfl

/-- What the owner answers where a condition of R59 holds. -/
theorem swannOwner_refused {s : State} {p : List Byte} {res : Result} (h : swannRefusal s p = some res) :
    swannOwner p s = annRefuse p s res := by
  rw [swannRefusal_eq] at h
  unfold swannOwner
  cases hread : readAnnouncement p with
  | none =>
    rw [hread] at h
    cases h
    rfl
  | some a =>
    rw [hread] at h
    dsimp only at h ⊢
    cases hcheck : announceCheck s a with
    | error r =>
      rw [hcheck] at h
      cases h
      rfl
    | ok k =>
      rw [hcheck] at h
      cases h

theorem swannRefusal_ne_ok {s : State} {p : List Byte} : swannRefusal s p ≠ some .ok := by
  rw [swannRefusal_eq]
  split
  · exact nofun
  · split
    next hcheck =>
      intro h
      exact absurd (Option.some.inj h ▸ announceCheck_error_mem hcheck) (by decide)
    · exact nofun

/-- What the owner answers where none holds. -/
theorem swannOwner_taken {s : State} {p : List Byte} (h : swannRefusal s p = none) :
    ∃ a k, readAnnouncement p = some a ∧ announceCheck s a = .ok k ∧
      swannOwner p s =
        { state := announce s a k, result := .ok
          payload := indexBytes (some (newEntry a k).windowEnd) ++
            [codeByte sweepStateList (newState s (newEntry a k))] } := by
  rw [swannRefusal_eq] at h
  unfold swannOwner
  cases hread : readAnnouncement p with
  | none =>
    rw [hread] at h
    cases h
  | some a =>
    rw [hread] at h
    dsimp only at h ⊢
    cases hcheck : announceCheck s a with
    | error r =>
      rw [hcheck] at h
      cases h
    | ok k => exact ⟨a, k, rfl, hcheck, rfl⟩

/-- Settles O35: the announcement read back from its payload, and the parts of its taking. -/
theorem swannAnnouncesItsSweep : Obligations.SwannAnnouncesItsSweep := by
  unfold Obligations.SwannAnnouncesItsSweep
  intro s ak a k htaking htag hvp hnumber hstart hlength hshift hfound hrefusal ending added
  obtain ⟨b, k', hread, hcheck, howner⟩ := swannOwner_taken (s := s.dequeue) hrefusal
  obtain rfl := readAnnouncement_payload htag hvp hnumber hstart hlength hshift hread
  have hk : k' = k := by
    have hfound' := (announceCheck_eq_ok hcheck).2.2.1
    exact Option.some.inj (hfound'.symm.trans hfound)
  subst hk
  rw [announce_eq] at howner
  refine congrArg Host.Outcome.next ((State.take_ok htaking ?_ howner rfl).trans ?_)
  · simp [payloadSuits, swannPayload_length]
  · cases b.reference <;> rfl

/-- Settles O36: the refusal table is the model's checks, and a refused SWANN has a notice of its own. -/
theorem swannIsRefusedInOrder : Obligations.SwannIsRefusedInOrder := by
  unfold Obligations.SwannIsRefusedInOrder
  intro s ak p res htaking hlength hrefusal asked
  have hsuits : payloadSuits 14#8 p = true := by simp [payloadSuits, hlength]
  have hres : res ≠ .ok := fun h => swannRefusal_ne_ok (h ▸ hrefusal)
  have howner : swannOwner p s.dequeue = annRefuse p s.dequeue res := swannOwner_refused hrefusal
  refine congrArg Host.Outcome.next ?_
  rw [State.take_fits htaking hsuits, howner]
  exact refuse_post hres

end Sys2Proof.Machine
end

section
/-! The readiness and overrun tests, aborts and merges in their parts, and the sweep records they offer (chapters 4, 7 and 8). -/

namespace Sys2Proof.Machine

/-! ### The readiness test (R63) -/

section
variable {ports : Vector Port 4}

theorem all_ports_iff {f : Port → Bool} : ports.toList.all f = true ↔ ∀ p : Fin 4, f ports[p] = true := by
  rw [List.all_eq_true]
  constructor
  · exact fun h p => h _ (Vector.mem_toList_iff.mpr (Vector.getElem_mem p.isLt))
  · intro h x hx
    obtain ⟨i, hi, rfl⟩ := Vector.mem_iff_getElem.mp (Vector.mem_toList_iff.mp hx)
    exact h ⟨i, hi⟩

theorem any_ports_iff {f : Port → Bool} : ports.toList.any f = true ↔ ∃ p : Fin 4, f ports[p] = true := by
  rw [List.any_eq_true]
  constructor
  · rintro ⟨x, hx, hf⟩
    obtain ⟨i, hi, rfl⟩ := Vector.mem_iff_getElem.mp (Vector.mem_toList_iff.mp hx)
    exact ⟨⟨i, hi⟩, hf⟩
  · exact fun ⟨p, hp⟩ => ⟨_, Vector.mem_toList_iff.mpr (Vector.getElem_mem p.isLt), hp⟩

theorem Port.delivering_iff {x : Port} : x.delivering = true ↔ x.state = .locked ∨ x.state = .slipped := by
  simp [Port.delivering]

theorem reached_iff {front : Option Nat} {i : Nat} : reached front i = true ↔ ∃ f, front = some f ∧ i ≤ f := by
  cases front <;> simp [reached]

/-- Every delivering port's front has reached an index (R63). -/
theorem all_reached_iff {i : Nat} : (ports.toList.all fun p => !p.delivering || reached p.front i) = true ↔
    ∀ p : Fin 4, ports[p].state = .locked ∨ ports[p].state = .slipped → ∃ f, ports[p].front = some f ∧ i ≤ f := by
  rw [all_ports_iff]
  refine forall_congr' fun p => ?_
  rw [Bool.or_eq_true, Bool.not_eq_true', reached_iff, ← Port.delivering_iff]
  cases ports[p].delivering <;> simp

/-- Some delivering port's front has reached an index (R63). -/
theorem any_reached_iff {i : Nat} : (ports.toList.any fun p => p.delivering && reached p.front i) = true ↔
    ∃ p : Fin 4, (ports[p].state = .locked ∨ ports[p].state = .slipped) ∧ ∃ f, ports[p].front = some f ∧ i ≤ f := by
  rw [any_ports_iff]
  refine exists_congr fun p => ?_
  rw [Bool.and_eq_true, reached_iff, Port.delivering_iff]

variable {e : SweepEntry}

theorem readiness_past (h : e.state = .waiting ∨ e.state = .capturing)
    (hpast : (ports.toList.all fun p => !p.delivering || reached p.front e.windowEnd) = true) :
    readiness ports e = .ready := (if_pos h).trans (if_pos hpast)

theorem readiness_started (h : e.state = .waiting)
    (hpast : ¬ (ports.toList.all fun p => !p.delivering || reached p.front e.windowEnd) = true)
    (hstarted : (ports.toList.any fun p => p.delivering && reached p.front e.start) = true) :
    readiness ports e = .capturing :=
  (if_pos (.inl h)).trans ((if_neg hpast).trans (if_pos ⟨h, hstarted⟩))

theorem readiness_kept (hpast : ¬ (ports.toList.all fun p => !p.delivering || reached p.front e.windowEnd) = true)
    (hstarted : ¬ (e.state = .waiting ∧ (ports.toList.any fun p => p.delivering && reached p.front e.start) = true)) :
    readiness ports e = e.state := by
  unfold readiness
  rw [if_neg hpast, if_neg hstarted, ite_self]

theorem readiness_later (h : e.state ∈ [.ready, .correlating, .qcWait]) : readiness ports e = e.state := by
  refine if_neg ?_
  rintro (hw | hc)
  · rw [hw] at h
    simp at h
  · rw [hc] at h
    simp at h

end

/-! ### The overrun test (R66) -/

theorem State.abortSweep_overrun_records (s : State) (e : SweepEntry) :
    (s.abortSweep e .overrun).oq.records = s.oq.records := by
  rw [State.abortSweep_eq s e (why := .overrun) nofun, State.completionTest_records, State.route_oq, State.post_oq]
  rfl

/-- An overrun offers no sweep record (R74). -/
theorem State.overrunTest_records (s : State) (i : Nat) : (s.overrunTest i).oq.records = s.oq.records := by
  unfold State.overrunTest
  induction s.sweeps.filter (overrun i) generalizing s with
  | nil => rfl
  | cons e es ih => exact (ih _).trans (s.abortSweep_overrun_records e)

theorem overrun_iff {i : Nat} {e : SweepEntry} :
    overrun i e = true ↔ e.state ∈ [.capturing, .ready, .correlating] ∧ e.start + 65536 ≤ i := by
  simp [overrun, or_assoc]

section
variable {s : State}

/-- Removing the aborted entries one by one frees each lane one of them held, and no other. -/
theorem foldl_abort_lane (w : AbortReason) (l : Fin 4) (es : List SweepEntry) (s : State) :
    (es.foldl (fun s e => s.abortSweep e w) s).lanes[l] =
      if ∃ e ∈ es, e.lane = some l then Lane.reset else s.lanes[l] := by
  induction es generalizing s with
  | nil => simp
  | cons e es ih =>
    rw [List.foldl_cons, ih, State.abortSweep_lanes, freedLanes_get]
    by_cases hlater : ∃ x ∈ es, x.lane = some l
    · rw [if_pos hlater, if_pos (by simpa using .inr hlater)]
    · rw [if_neg hlater]
      by_cases hfirst : e.lane = some l
      · rw [if_pos hfirst, if_pos ⟨e, by simp, hfirst⟩]
      · rw [if_neg hfirst, if_neg (by simpa [hfirst] using hlater)]

theorem mem_overrunTest (htags : s.TagsDistinct) (i : Nat) (e : SweepEntry) :
    e ∈ (s.overrunTest i).sweeps ↔ e ∈ s.sweeps ∧ ¬ overrun i e = true := by
  unfold State.overrunTest
  rw [foldl_abort_sweeps, List.mem_filter]
  refine and_congr_right fun he => ?_
  rw [List.all_eq_true]
  constructor
  · intro h hstruck
    have := h e (List.mem_filter.mpr ⟨he, hstruck⟩)
    simp at this
  · intro hkept x hx
    obtain ⟨hxmem, hxstruck⟩ := List.mem_filter.mp hx
    rw [bne_iff_ne]
    intro htag
    rw [eq_of_tag_eq htags.tags he hxmem htag] at hkept
    exact hkept hxstruck

end

/-- Settles O37: the readiness test case by case, the hand-off, and the entries an overrun test removes. -/
theorem readinessAndOverrunTests : Obligations.ReadinessAndOverrunTests := by
  unfold Obligations.ReadinessAndOverrunTests
  refine ⟨?readiness, ?handOff, ?overrun⟩
  case readiness =>
    intro ports e delivers past started
    have hpast : (ports.toList.all fun p => !p.delivering || reached p.front e.windowEnd) = true ↔ past := all_reached_iff
    have hstarted : (ports.toList.any fun p => p.delivering && reached p.front e.start) = true ↔ started := any_reached_iff
    refine ⟨fun hstate h => readiness_past (by simpa using hstate) (hpast.mpr h),
      fun hstate hnot h => readiness_started hstate (mt hpast.mp hnot) (hstarted.mpr h),
      fun hstate hnot hnone => ?_, fun hstate hnot => ?_, readiness_later⟩
    · rw [readiness_kept (mt hpast.mp hnot) fun h => hnone (hstarted.mp h.2), hstate]
    · rw [readiness_kept (mt hpast.mp hnot) (by rw [hstate]; simp), hstate]
  case handOff =>
    exact fun s before p => ⟨s.handOff_same before p, s.handOff_moved before p, fun i => s.handOff_written before p i⟩
  case overrun =>
    intro s i htags struck
    have hstruck (e : SweepEntry) : overrun i e = true ↔ struck e := overrun_iff
    refine ⟨_, rfl, fun e => (mem_overrunTest htags i e).trans (by rw [hstruck]), ?_, fun l => ?_,
      foldl_abort_frame State.channels (fun s e w => State.abortSweep_channels s e w) _ _ s,
      foldl_abort_frame State.interval (fun s e w => State.abortSweep_interval s e w) _ _ s,
      foldl_abort_frame State.ports (fun s e w => State.abortSweep_ports s e w) _ _ s,
      foldl_abort_frame State.qcPolicy (fun s e w => State.abortSweep_qcPolicy s e w) _ _ s,
      foldl_abort_frame State.cmd (fun s e w => State.abortSweep_cmd s e w) _ _ s,
      foldl_abort_frame State.pending (fun s e w => State.abortSweep_pending s e w) _ _ s, s.overrunTest_records i⟩
    · unfold State.overrunTest
      rw [foldl_abort_sweeps]
      exact List.filter_sublist
    · have hlane := foldl_abort_lane .overrun l (s.sweeps.filter (overrun i)) s
      have hheld : (∃ e ∈ s.sweeps.filter (overrun i), e.lane = some l) ↔ ∃ e ∈ s.sweeps, struck e ∧ e.lane = some l := by
        simp only [List.mem_filter, hstruck, and_assoc]
      refine ⟨fun h => hlane.trans (if_pos (hheld.mpr h)), fun h => hlane.trans (if_neg ?_)⟩
      rw [hheld]
      rintro ⟨e, he, hs, hl⟩
      exact h e he hs hl

/-! ### Aborts and merges (R72, R74) -/

/-- Settles O40: the parts of the merge, the earliest start as a minimum. -/
theorem mergesRunTheirParts : Obligations.MergesRunTheirParts := by
  unfold Obligations.MergesRunTheirParts
  intro s e l d merged stacked
  have hmerged (y : Stack) : y.mergeSweep e l.result = merged y := by
    have hearlier : earlier y.earliest e.start = some (min (y.earliest.getD e.start) e.start) := by
      cases y.earliest <;> simp [earlier]
    unfold Stack.mergeSweep
    rw [hearlier]
    rfl
  rw [State.mergeSweep_eq]
  have hstacked : (s.updStack e.vp fun y => y.mergeSweep e l.result) = stacked := by
    simp only [hmerged]
    rfl
  rw [hstacked]

theorem State.findStack_congr {s t : State} (h : t.stackTable = s.stackTable) (vp : Nat) : t.findStack vp = s.findStack vp := by
  unfold State.findStack
  rw [h]

/-- The resweep decision of a stack in the table, and the test after it (R115). -/
theorem State.resweep_completionTest {x : State} {e : SweepEntry} {k : Stack} (h : x.findStack e.vp = some k)
    (c : AbortCause) : (x.resweep e c).completionTest e.vp =
      if k.state = .opened then
        if k.retriesUsed < k.settings.retryLimit then
          ((x.updStack e.vp fun y => { y.setMap e.number (.retry e.tag) with retriesUsed := y.retriesUsed + 1 }).post
            (.resweep e.vp e.number (k.settings.retryLimit - (k.retriesUsed + 1)))).completionTest e.vp
        else (x.updStack e.vp fun y => y.abandon e c).completionTest e.vp
      else (x.updStack e.vp fun y => y.setMap e.number (.retry e.tag)).completionTest e.vp := by
  unfold State.resweep
  rw [h]
  dsimp only
  split_ifs <;> rfl

/-- Settles O38: the record offered, the leaving and its notice, the routing and the test, by the cause. -/
theorem abortsRunTheirParts : Obligations.AbortsRunTheirParts := by
  unfold Obligations.AbortsRunTheirParts
  intro s e k hfound offered gone mapped reopened again granted abandon resweep
  have hoffered {w : AbortReason} {d : Disposition} {q : Option QcRecord} (hw : w.record = some (d, q)) :
      s.offerAborted e w = offered d q := by
    unfold State.offerAborted
    rw [hw]
    simp only [offered]
    cases e.lane <;> rfl
  have htable (d : Disposition) (q : Option QcRecord) (c : AbortCause) :
      (gone (offered d q) c).stackTable = s.stackTable := by
    have hoffer : (offered d q).stackTable = s.stackTable := by
      simp only [offered]
      split
      · split
        · exact State.offerSweep_stackTable s e _ d q
        · rfl
      · rfl
    exact (State.post_stackTable _ _).trans hoffer
  have hresweep (d : Disposition) (q : Option QcRecord) (c : AbortCause) :
      ((gone (offered d q) c).resweep e c).completionTest e.vp = resweep (gone (offered d q) c) c :=
    State.resweep_completionTest ((State.findStack_congr (htable d q c) e.vp).trans hfound) c
  refine ⟨s.abortSweep_eq e nofun, s.abortSweep_eq e nofun, s.abortSweep_eq e nofun, fun r hretry => ?_, fun r hother => ?_,
    ?_, ?_, ?_⟩
  · rw [s.abortSweep_eq e (why := .rejected r) nofun, hoffered (w := .rejected r) rfl, ← hresweep]
    exact congrArg (State.completionTest · e.vp) (if_pos hretry)
  · rw [s.abortSweep_eq e (why := .rejected r) nofun, hoffered (w := .rejected r) rfl]
    exact congrArg (State.completionTest · e.vp) (if_neg hother)
  · rw [s.abortSweep_eq e (why := .qcTimeout true) nofun, hoffered (w := .qcTimeout true) rfl, ← hresweep]
    rfl
  · rw [s.abortSweep_eq e (why := .qcTimeout false) nofun, hoffered (w := .qcTimeout false) rfl]
    rfl
  · exact abortSweep_discarded s e

/-! ### Cancelling (R76) -/

theorem mergedInMap_iff {s : State} {tag : Nat} : s.mergedInMap tag = true ↔ ∃ k ∈ s.stackTable, .merged tag ∈ k.map := by
  simp [State.mergedInMap]

theorem findSweep_eq_none {s : State} {tag : Nat} : s.findSweep tag = none ↔ ∀ e ∈ s.sweeps, e.tag ≠ tag := by
  simp [State.findSweep]

section
variable {s : State} {tag : Nat}

theorem field_tag (h : tag < 65536) : field (leBytes 2 tag) 0 2 = tag := by
  rw [field_all (by simp), leNat_leBytes (by omega)]

theorem swcancelOwner_found {e : SweepEntry} (htag : tag < 65536) (hpos : 1 ≤ tag) (hfound : s.findSweep tag = some e) :
    swcancelOwner (leBytes 2 tag) s = takenOk (s.abortSweep e .cancelled) := by
  unfold swcancelOwner
  rw [field_tag htag, if_neg (by omega), hfound]

theorem swcancelOwner_unlisted (htag : tag < 65536) (hpos : 1 ≤ tag) (hnone : s.findSweep tag = none) :
    swcancelOwner (leBytes 2 tag) s = if s.mergedInMap tag then refuse s .late else refuse s .notFound := by
  unfold swcancelOwner
  rw [field_tag htag, if_neg (by omega), hnone]

end

/-- Settles O39: the listed entry aborted, and the refusals by tag and map. -/
theorem swcancelAbortsOrRefuses : Obligations.SwcancelAbortsOrRefuses := by
  unfold Obligations.SwcancelAbortsOrRefuses
  intro s ak tag htag asked htaking ev
  have hfield : field (leBytes 2 tag) 0 2 = tag := field_tag htag
  have hsuits : payloadSuits 15#8 (leBytes 2 tag) = true := by simp [payloadSuits]
  refine ⟨fun hzero => congrArg Host.Outcome.next ?range, fun e hpos hfound => congrArg Host.Outcome.next ?aborts,
    fun hpos hnone hmerged => congrArg Host.Outcome.next ?late, fun hpos hnone hmerged => congrArg Host.Outcome.next ?notFound⟩
  case range =>
    refine State.take_refused htaking hsuits nofun ?_
    unfold swcancelOwner
    rw [hfield, if_pos hzero]
    rfl
  case aborts =>
    have howner := swcancelOwner_found (s := s.dequeue) htag hpos hfound
    have habort : s.dequeue.abortSweep e .cancelled = { s.abortSweep e .cancelled with cmd := s.dequeue.cmd } :=
      s.abortSweep_setCmd _ e _
    refine (State.take_ok htaking hsuits howner (State.abortSweep_cmd _ _ _)).trans ?_
    rw [habort]
  all_goals have howner := swcancelOwner_unlisted (s := s.dequeue) htag hpos (findSweep_eq_none.mpr hnone)
  case late =>
    exact State.take_refused htaking hsuits nofun (howner.trans (if_pos (mergedInMap_iff.mpr hmerged)))
  case notFound =>
    refine State.take_refused htaking hsuits nofun (howner.trans (if_neg ?_))
    rw [mergedInMap_iff]
    rintro ⟨k, hk, hmem⟩
    exact hmerged k hk hmem

/-! ### Sweep records (R157) -/

/-- An append: the record joins the list, and OQREADY is posted into an empty one (R146, R147). -/
theorem State.append_eq (s : State) (kind : RecordKind) (size : Nat) (content : Nat → List Byte) :
    s.append kind size content =
      if s.oq.records = [] then
        State.post { s with oq := s.oq.appended kind size content } (.oqReady s.oq.nextNumber)
      else { s with oq := s.oq.appended kind size content } := by
  unfold State.append OutputQueue.appended
  cases hrecords : s.oq.records with
  | nil => rfl
  | cons r rest => rfl

/-- Settles O42: the offer by the keeping of sweeps, the held order and the free space. -/
theorem sweepRecordsAreAppendedOrDropped : Obligations.SweepRecordsAreAppendedOrDropped := by
  unfold Obligations.SweepRecordsAreAppendedOrDropped
  intro s e l d qc k hfound size n made appended
  have hoffer : s.offerSweep e l d qc = if k.settings.keepSweeps = true then
      if s.oq.heldOrder.isEmpty = true then
        if size ≤ s.oq.free then s.append .sweep size fun n => sweepContent e k.settings l n d qc s.interval s.channels
        else s.post (.recDrop e.tag e.vp .noSpace)
      else s.post (.recDrop e.tag e.vp .heldWait)
    else s := by
    unfold State.offerSweep
    rw [hfound]
    rfl
  rw [hoffer]
  refine ⟨fun hkeep => if_neg (by simp [hkeep]), fun hkeep hheld => ?_, fun hkeep hheld hspace => ?_,
    fun hkeep hheld hspace => ?_⟩
  all_goals rw [if_pos hkeep]
  · exact if_neg (by simpa using hheld)
  · exact (if_pos (by rw [hheld]; rfl)).trans (if_neg (Nat.not_le.mpr hspace))
  · refine (if_pos (by rw [hheld]; rfl)).trans ((if_pos hspace).trans ?_)
    exact State.append_eq s .sweep size _

end Sys2Proof.Machine
end

section
/-! Grants, completions, QC expiries and quality reports (chapters 5 and 6). -/

namespace Sys2Proof.Machine

/-! ### Which entry and which lane (R84) -/

/-- Among the entries with a property, the first of those with the smallest start. -/
theorem earliestStart_filter {P : SweepEntry → Bool} {l : List SweepEntry} {i : Nat} {e : SweepEntry} (hi : l[i]? = some e)
    (he : P e = true)
    (hmin : ∀ j f, l[j]? = some f → P f = true → e.start < f.start ∨ (e.start = f.start ∧ i ≤ j)) :
    earliestStart (l.filter P) = some e := by
  induction l generalizing i with
  | nil => simp at hi
  | cons x l ih =>
    cases i with
    | zero =>
      obtain rfl : x = e := by simpa using hi
      rw [List.filter_cons_of_pos he, earliestStart]
      cases hrest : earliestStart (l.filter P) with
      | none => rfl
      | some f =>
        obtain ⟨hf, hPf⟩ := List.mem_filter.mp (earliestStart_mem hrest)
        obtain ⟨j, hj⟩ := List.mem_iff_getElem?.mp hf
        have hstart := hmin (j + 1) f (by simpa using hj) hPf
        exact if_neg (by omega)
    | succ i =>
      have hrest := ih (i := i) (by simpa using hi) fun j f hj hf => by
        have := hmin (j + 1) f (by simpa using hj) hf
        omega
      by_cases hx : P x = true
      · have hstart := hmin 0 x rfl hx
        rw [List.filter_cons_of_pos hx, earliestStart, hrest]
        exact if_pos (by omega)
      · rw [List.filter_cons_of_neg hx, hrest]

section
variable {s : State}

theorem State.nextReady_of_first {i : Nat} {e : SweepEntry} (hi : s.sweeps[i]? = some e) (he : e.state = .ready)
    (hmin : ∀ j f, s.sweeps[j]? = some f → f.state = .ready → e.start < f.start ∨ (e.start = f.start ∧ i ≤ j)) :
    s.nextReady = some e :=
  earliestStart_filter hi (by simp [he]) fun j f hj hf => hmin j f hj (by simpa using hf)

theorem State.nextReady_none (h : ∀ e ∈ s.sweeps, e.state ≠ .ready) : s.nextReady = none := by
  unfold State.nextReady
  rw [List.filter_eq_nil_iff.mpr fun e he => by simpa using h e he]
  rfl

theorem State.idleLane_of_lowest {l : Fin 4} (hl : s.lanes[l].state = .idle)
    (hlow : ∀ m : Fin 4, m < l → s.lanes[m].state ≠ .idle) : s.idleLane = some l := by
  unfold State.idleLane
  rw [List.find?_eq_some_iff_getElem]
  refine ⟨by rw [hl]; rfl, l.val, by simp, by simp, fun j hj => ?_⟩
  rw [List.getElem_finRange, Bool.not_eq_true', beq_eq_false_iff_ne]
  exact hlow ⟨j, by omega⟩ hj

theorem State.idleLane_none (h : ∀ l : Fin 4, s.lanes[l].state ≠ .idle) : s.idleLane = none := by
  unfold State.idleLane
  rw [List.find?_eq_none]
  intro l _
  rw [beq_iff_eq]
  exact h l

/-! ### What a grant fixes (R85 to R87) -/

theorem State.grant_none (h : s.nextReady = none ∨ s.idleLane = none) : s.grant = s := by
  unfold State.grant
  obtain h | h := h
  · rw [h]
  · rw [h]
    cases s.nextReady <;> rfl

theorem State.grant_to {e : SweepEntry} {l : Fin 4} {k : Stack} (he : s.nextReady = some e) (hl : s.idleLane = some l)
    (hk : s.findStack e.vp = some k) : s.grant = s.grantTo e k.settings l := by
  unfold State.grant
  rw [he, hl]
  dsimp only
  rw [hk]

variable {e : SweepEntry} {k : StackSettings} {l : Fin 4}

theorem State.grantTo_slot {i : Fin 8} (h : e.reference = .slot i) : s.grantTo e k l =
    (s.updSweep e.tag fun x => x.grantedTo l).setLane l (s.grantedLane e k (s.slots[i].samples.take e.length) 0) := by
  unfold State.grantTo
  rw [h]

theorem State.grantTo_pilot {c : Fin 480} {shift : Nat} {ds : List Sample} (h : e.reference = .pilot c shift)
    (hds : allSome (windowSamples s.ports[channelPort c].ring (channelSlot c) e.start e.length) = some ds) :
    s.grantTo e k l = (s.updSweep e.tag fun x => x.grantedTo l).setLane l
      (s.grantedLane e k (pilotReference shift s.channels[c].polarity ds) (pilotClips shift s.channels[c].polarity ds)) := by
  unfold State.grantTo
  rw [h]
  dsimp only
  rw [hds]

theorem State.grantTo_noPilot {c : Fin 480} {shift : Nat} (h : e.reference = .pilot c shift)
    (hds : allSome (windowSamples s.ports[channelPort c].ring (channelSlot c) e.start e.length) = none) :
    s.grantTo e k l = ((s.updSweep e.tag fun x => x.grantedTo l).setLane l (s.grantedLane e k [] 0)).abortSweep
      (e.grantedTo l) .noPilot := by
  unfold State.grantTo
  rw [h]
  dsimp only
  rw [hds]

/-- The samples of a channel over a run of indices, as the grant reads them (R52, R54). -/
theorem State.windowSamples_eq (s : State) (c : Fin 480) (start count : Nat) :
    windowSamples s.ports[channelPort c].ring (channelSlot c) start count =
      (List.range count).map fun j => s.sample c (start + j) := rfl

theorem allSome_window {c : Fin 480} {start count : Nat} {ds : List Sample} (hlength : ds.length = count)
    (hds : ∀ j, j < count → s.sample c (start + j) = ds[j]?) :
    allSome (windowSamples s.ports[channelPort c].ring (channelSlot c) start count) = some ds := by
  rw [State.windowSamples_eq, allSome_eq_some]
  refine List.ext_getElem (by simp [hlength]) fun j hj hj' => ?_
  have hlt : j < count := by simpa using hj
  rw [List.getElem_map, List.getElem_map, List.getElem_range, hds j hlt, List.getElem?_eq_getElem]

theorem allSome_window_none {c : Fin 480} {start count : Nat}
    (h : ∃ j, j < count ∧ s.sample c (start + j) = none) :
    allSome (windowSamples s.ports[channelPort c].ring (channelSlot c) start count) = none := by
  rw [State.windowSamples_eq, allSome_eq_none, List.mem_map]
  obtain ⟨j, hj, hnone⟩ := h
  exact ⟨j, List.mem_range.mpr hj, hnone⟩

end

theorem polarised_eq (pol : Polarity) (d : Sample) : polarised pol d = if pol = .reversed then -d.toInt else d.toInt := by
  cases pol <;> rfl

theorem clamps_pilotBound (x : Int) : clamps pilotBound x = decide (x < -32767 ∨ 32767 < x) := by
  rw [clamps, Bool.or_comm, Bool.decide_or]
  rfl

/-- Settles O43: the choice, then the three ends of a grant by its reference. -/
theorem grantsFixTheJob : Obligations.GrantsFixTheJob := by
  unfold Obligations.GrantsFixTheJob
  refine ⟨fun s h => congrArg Host.Outcome.next (State.grant_none ?_), ?_⟩
  · exact h.symm.imp State.nextReady_none State.idleLane_none
  intro s i e k l hi hready hmin hidle hlow hfound job taken
  have hgrant : exec .grant s = .next (s.grantTo e k.settings l) :=
    congrArg Host.Outcome.next (State.grant_to (State.nextReady_of_first hi hready hmin)
      (State.idleLane_of_lowest hidle hlow) hfound)
  rw [hgrant]
  refine ⟨fun slot hslot => congrArg Host.Outcome.next (State.grantTo_slot hslot), ?_⟩
  intro c shift hpilot x
  have hrounded (d : Sample) : pilotRounded shift s.channels[c].polarity d = x d := by
    rw [pilotRounded, polarised_eq]
  refine ⟨fun ds hlength hds => congrArg Host.Outcome.next ?present,
    fun habsent => congrArg Host.Outcome.next (State.grantTo_noPilot hpilot (allSome_window_none habsent))⟩
  case present =>
    have hreference : pilotReference shift s.channels[c].polarity ds =
        ds.map fun d => BitVec.ofInt 16 (max (-32767) (min 32767 (x d))) :=
      List.map_congr_left fun d _ => by rw [hrounded, clampTo_pilotBound]
    have hclips : pilotClips shift s.channels[c].polarity ds =
        ds.countP fun d => decide (x d < -32767 ∨ 32767 < x d) := by
      rw [pilotClips, ← List.countP_eq_length_filter]
      exact List.countP_congr fun d _ => by rw [hrounded, clamps_pilotBound]
    rw [State.grantTo_pilot hpilot (allSome_window hlength hds), hreference, hclips]
    rfl

/-! ### Completions and expiries (R70, R71, R95, R112) -/

section
variable {s : State} {l : Fin 4} {e : SweepEntry}

theorem SweepEntry.grantedTo_self (hstate : e.state = .correlating) (hlane : e.lane = some l) : e.grantedTo l = e := by
  obtain ⟨tag, vp, number, start, length, reference, windowEnd, state, qc, lane, qcTimer⟩ := e
  subst hstate hlane
  rfl

theorem State.completeJob_running (hlane : s.lanes[l].state = .correlating) (hheld : s.lanes[l].held = some e.tag)
    (hfound : s.findSweep e.tag = some e) : s.completeJob l =
      if (e.qc.isSome || !s.qcPolicy.required) = true then
        (s.setLane l { s.lanes[l] with result := s.lanes[l].jobResult }).mergeSweep (e.grantedTo l)
          { s.lanes[l] with result := s.lanes[l].jobResult } .merged
      else
        (s.setLane l { s.lanes[l] with result := s.lanes[l].jobResult, state := .qcWait }).updSweep e.tag fun x =>
          { x with state := .qcWait, qcTimer := some s.qcPolicy.waitLimit } := by
  have hentry : s.lanes[l].held.bind s.findSweep = some e := by
    rw [hheld]
    exact hfound
  refine (if_pos hlane).trans ?_
  rw [hentry]

theorem exec_qcWaitExpiry_waiting (hfound : s.findSweep e.tag = some e) (hstate : e.state = .qcWait)
    (htimer : e.qcTimer.isSome = true) : exec (.qcWaitExpiry e.tag) s = .next (s.expireQcWait e) := by
  show execQcWaitExpiry e.tag s = _
  unfold execQcWaitExpiry
  rw [hfound]
  exact congrArg Host.Outcome.next (if_pos ⟨hstate, htimer⟩)

end

/-- Settles O46: a completion by the record and the policy, an expiry by the timeout action. -/
theorem completionsAndQcExpiries : Obligations.CompletionsAndQcExpiries := by
  unfold Obligations.CompletionsAndQcExpiries
  refine ⟨fun s l hidle => congrArg Host.Outcome.next (if_neg hidle), ?_⟩
  intro s l e hfound hlane done placed
  refine ⟨fun hrunning hheld hstate => ?completion, fun hstate htimer => ?expiry⟩
  case completion =>
    have hexec : exec (.laneCompletion l) s = .next (s.completeJob l) := rfl
    rw [hexec, State.completeJob_running hrunning hheld hfound, SweepEntry.grantedTo_self hstate hlane]
    refine ⟨fun hmerges => congrArg Host.Outcome.next (if_pos ?_), fun hqc hrequired => congrArg Host.Outcome.next (if_neg ?_)⟩
    · obtain h | h := hmerges <;> simp [h]
    · simp [hqc, hrequired]
  case expiry =>
    rw [exec_qcWaitExpiry_waiting hfound hstate htimer]
    unfold State.expireQcWait
    refine ⟨fun haction => ?_, fun haction => ?_, fun haction => ?_⟩
    · rw [haction, hlane]
    · rw [haction]
    · rw [haction]

/-! ### Quality reports (R104, R107, R108, R110) -/

section
variable {tag phase distortion force : Nat}

section
variable {s : State} (htag : tag < 65536) (hphase : phase < 65536) (hdistortion : distortion < 65536)
  (hforce : force < 65536)
include htag hphase hdistortion hforce

theorem swqcOwner_range (hbad : tag = 0 ∨ 1800 < phase ∨ 1000 < distortion ∨ 2000 < force) :
    swqcOwner (swqcPayload tag phase distortion force) s = refuse s .range := by
  unfold swqcOwner
  rw [field_swqcPayload_tag htag, field_swqcPayload_phase hphase, field_swqcPayload_distortion hdistortion,
    field_swqcPayload_force hforce, if_pos hbad]

theorem swqcOwner_found {e : SweepEntry} (hgood : ¬ (tag = 0 ∨ 1800 < phase ∨ 1000 < distortion ∨ 2000 < force))
    (hfound : s.findSweep tag = some e) : swqcOwner (swqcPayload tag phase distortion force) s =
      if e.qc.isSome then refuse s .duplicate else reportTaken s e phase distortion force := by
  unfold swqcOwner
  rw [field_swqcPayload_tag htag, field_swqcPayload_phase hphase, field_swqcPayload_distortion hdistortion,
    field_swqcPayload_force hforce, if_neg hgood, hfound]

theorem swqcOwner_unlisted (hgood : ¬ (tag = 0 ∨ 1800 < phase ∨ 1000 < distortion ∨ 2000 < force))
    (hnone : s.findSweep tag = none) : swqcOwner (swqcPayload tag phase distortion force) s =
      if s.mergedInMap tag then refuse s .late else refuse s .notFound := by
  unfold swqcOwner
  rw [field_swqcPayload_tag htag, field_swqcPayload_phase hphase, field_swqcPayload_distortion hdistortion,
    field_swqcPayload_force hforce, if_neg hgood, hnone]

end

/-- A verdict of PASS or NOTE stores its record with a sweep in QCWAIT, then merges it (R107). -/
theorem State.applyVerdict_merges (s : State) {e : SweepEntry} {r : QcRecord} {l : Fin 4}
    (h : r.verdict = .pass ∨ r.verdict = .note) (hstate : e.state = .qcWait) (hlane : e.lane = some l) :
    s.applyVerdict e r =
      ((s.updSweep e.tag fun x => { x with qc := some r }).mergeSweep { e with qc := some r } s.lanes[l] .merged,
        .merged) := by
  obtain ⟨tag, vp, number, start, length, reference, windowEnd, state, qc, lane, qcTimer⟩ := e
  subst hstate hlane
  exact if_neg (by obtain h | h := h <;> simp [h])

/-- The note of a report reads and changes nothing of the command port. -/
theorem State.postNote_setCmd (s : State) (c : CommandPort) (tag : Nat) (v : Verdict) (f : FailedChecks) :
    State.postNote { s with cmd := c } tag v f = { s.postNote tag v f with cmd := c } := by
  unfold State.postNote
  split
  · exact s.post_setCmd c _
  · rfl

theorem State.postNote_lanes (s : State) (tag : Nat) (v : Verdict) (f : FailedChecks) :
    (s.postNote tag v f).lanes = s.lanes := by
  unfold State.postNote
  split
  · exact s.post_lanes _
  · rfl

end

/-- Settles O48: the refusals in their order, and a taken report by its verdict and where its sweep stands. -/
theorem reportsActByVerdictAndPlace : Obligations.ReportsActByVerdictAndPlace := by
  unfold Obligations.ReportsActByVerdictAndPlace
  intro s ak tag phase distortion force htag hphase hdistortion hforce asked htaking ev bad
  have hrefused {res : Result} (hres : res ≠ .ok)
      (h : swqcOwner (swqcPayload tag phase distortion force) s.dequeue = refuse s.dequeue res) :
      ev = .next (s.refusing asked res []) :=
    congrArg Host.Outcome.next (State.take_refused htaking payloadSuits_swqcPayload hres h)
  refine ⟨fun hbad => hrefused nofun (swqcOwner_range htag hphase hdistortion hforce hbad), fun hgood hnone hmerged => hrefused nofun ?late,
    fun hgood hnone hmerged => hrefused nofun ?notFound, fun e hgood hfound => ?listed⟩
  case late =>
    have howner := swqcOwner_unlisted (s := s.dequeue) htag hphase hdistortion hforce hgood (findSweep_eq_none.mpr hnone)
    exact howner.trans (if_pos (mergedInMap_iff.mpr hmerged))
  case notFound =>
    have howner := swqcOwner_unlisted (s := s.dequeue) htag hphase hdistortion hforce hgood (findSweep_eq_none.mpr hnone)
    refine howner.trans (if_neg ?_)
    rw [mergedInMap_iff]
    rintro ⟨k, hk, hmem⟩
    exact hmerged k hk hmem
  case listed =>
    have howner := swqcOwner_found (s := s.dequeue) htag hphase hdistortion hforce hgood hfound
    refine ⟨fun hqc => hrefused nofun (howner.trans (if_pos hqc)), fun hqc => ?_⟩
    have htaken := howner.trans (if_neg (by simp [hqc]))
    intro f v r noted stored answered
    have htagged : e.tag = tag := (State.findSweep_eq_some hfound).2
    have hnoted : s.dequeue.postNote e.tag v (reportedChecks s.qcPolicy f) = { noted with cmd := s.dequeue.cmd } := by
      rw [htagged]
      exact s.postNote_setCmd s.dequeue.cmd tag v _
    have hsweeps : noted.sweeps = s.sweeps := s.postNote_sweeps tag v _
    have hlanes : noted.lanes = s.lanes := s.postNote_lanes tag v _
    have hstored : (State.updSweep { noted with cmd := s.dequeue.cmd } e.tag fun x => { x with qc := some r }) =
        { stored with cmd := s.dequeue.cmd } := by
      unfold State.updSweep
      rw [htagged, hsweeps]
    have hanswered {x : State} {o : QcOutcome}
        (h : State.applyVerdict { noted with cmd := s.dequeue.cmd } e r = ({ x with cmd := s.dequeue.cmd }, o)) :
        ev = .next (answered x (codeByte qcOutcomeList o)) := by
      have hreport : reportTaken s.dequeue e phase distortion force = {
          state := { x with cmd := s.dequeue.cmd }
          result := .ok
          payload := [codeByte verdictList v, byteOf (reportedChecks s.qcPolicy f).code, codeByte qcOutcomeList o] } := by
        rw [← hnoted] at h
        exact congrArg (fun y : State × QcOutcome => ({
          state := y.1
          result := .ok
          payload := [codeByte verdictList v, byteOf (reportedChecks s.qcPolicy f).code, codeByte qcOutcomeList y.2] } :
            Reply)) h
      exact congrArg Host.Outcome.next (State.take_ok (t := { x with cmd := s.dequeue.cmd }) htaking
        payloadSuits_swqcPayload (htaken.trans hreport) rfl)
    refine ⟨fun hv hplace => hanswered (o := .stored) ?stored, fun hv hwaits l hlane => hanswered (o := .merged) ?merged,
      fun hv => hanswered (o := .aborted) ?aborted⟩
    case stored =>
      rw [State.applyVerdict_stored _ hv (.inl hplace), hstored]
    case merged =>
      rw [State.applyVerdict_merges _ hv hwaits hlane, hstored, State.mergeSweep_setCmd]
      show ({ stored.mergeSweep { e with qc := some r } noted.lanes[l] .merged with cmd := s.dequeue.cmd }, _) = _
      rw [hlanes]
    case aborted =>
      have hsame : noted = s := if_neg (by obtain h | h := hv <;> simp [h])
      rw [State.applyVerdict_aborted _ _ hv, State.abortSweep_setCmd, hsame]

end Sys2Proof.Machine
end

section
/-! The completion test and the space request, the stack requests, the held order and the release of blocks, and the finalize
completion (chapters 7 and 8). -/

namespace Sys2Proof.Machine

/-! ### Completion and space (R133 to R136, R148, R149) -/

section
variable {s : State} {vp : Nat} {k : Stack}

theorem State.complete_iff (hvp : k.settings.vp = vp) : s.complete k = true ↔
    (k.state = .opened ∧ k.merged + k.abandoned = k.settings.expected) ∨ (k.state = .closing ∧ ∀ e ∈ s.sweeps, e.vp ≠ vp) := by
  subst hvp
  unfold State.complete
  cases k.state <;> simp

theorem MapEntry.notShot_eq_mayAnnounce : MapEntry.notShot = MapEntry.mayAnnounce := by
  funext m
  cases m <;> rfl

theorem Stack.notShotCount_eq (y : Stack) :
    y.notShotCount = if y.state = .closing then y.map.countP MapEntry.mayAnnounce else 0 := by
  rw [Stack.notShotCount, MapEntry.notShot_eq_mayAnnounce, List.countP_eq_length_filter]

/-- A stack with its not-shot count and its channel list fixed (R135, R148). -/
def Stack.listing (listed : List ListedChannel) (y : Stack) : Stack :=
  { y with notShot := some y.notShotCount, channelList := listed }

/-- Two changes of one stack that keep its settings are one. -/
theorem State.updStack_updStack (f g : Stack → Stack) (hf : ∀ y, (f y).settings = y.settings) :
    (s.updStack vp f).updStack vp g = s.updStack vp fun y => g (f y) := by
  unfold State.updStack
  dsimp only
  rw [List.map_map]
  have hmap : ((fun y : Stack => if y.settings.vp = vp then g y else y) ∘ fun y => if y.settings.vp = vp then f y else y) =
      fun y => if y.settings.vp = vp then g (f y) else y := by
    funext y
    by_cases hy : y.settings.vp = vp
    · simp [hy, hf]
    · simp [hy]
  rw [hmap]

theorem State.requestSpace_granted {bytes : Nat} (h : s.oq.heldOrder = [] ∧ bytes ≤ s.oq.free) :
    s.requestSpace vp bytes = s.grantSpace vp bytes := if_pos (by simp [h.1, h.2])

theorem State.requestSpace_held {bytes : Nat} (h : ¬ (s.oq.heldOrder = [] ∧ bytes ≤ s.oq.free)) :
    s.requestSpace vp bytes = s.holdStack vp bytes := if_neg (by simpa using h)

theorem State.grantSpace_eq (bytes : Nat) : s.grantSpace vp bytes =
    { s.updStack vp (fun y => { y with state := .finalizing }) with
      oq := { s.oq with reservations := s.oq.reservations ++ [{ vp := vp, bytes := bytes }] } } := rfl

theorem State.holdStack_eq (bytes : Nat) : s.holdStack vp bytes = State.post
    { s.updStack vp (fun y => { y with state := .held }) with oq := { s.oq with heldOrder := s.oq.heldOrder ++ [vp] } }
    (.stkHeld vp bytes) := rfl

theorem State.completionTest_complete (hfound : s.findStack vp = some k) (h : s.complete k = true) : s.completionTest vp =
    (s.updStack vp (Stack.listing s.listedChannels)).requestSpace vp
      (stackRecordSize s.listedChannels.length k.settings.listen) := by
  unfold State.completionTest
  rw [hfound]
  exact if_pos h

theorem State.completionTest_incomplete (hfound : s.findStack vp = some k) (h : ¬ s.complete k = true) :
    s.completionTest vp = s := by
  unfold State.completionTest
  rw [hfound]
  exact if_neg h

end

/-- Settles O49: the test's two conditions, and the two ends of the space request. -/
theorem completeStacksAskForSpace : Obligations.CompleteStacksAskForSpace := by
  unfold Obligations.CompleteStacksAskForSpace
  intro s vp k hfound holds
  have hholds : s.complete k = true ↔ holds := State.complete_iff (State.findStack_eq_some hfound).2
  refine ⟨fun hnot => State.completionTest_incomplete hfound (mt hholds.mp hnot), ?_⟩
  intro h listed hrising hmem size fixed
  rw [State.completionTest_complete hfound (hholds.mpr h), ← listedChannels_unique s listed hrising hmem]
  have hfixed (st : StackState) :
      (s.updStack vp (Stack.listing listed)).updStack vp (fun y => { y with state := st }) =
        { s with stackTable := s.stackTable.map (fixed st) } := by
    rw [State.updStack_updStack (Stack.listing listed) _ fun _ => rfl]
    simp only [Stack.listing, Stack.notShotCount_eq]
    rfl
  refine ⟨fun hfits => ?_, fun hfull => ?_⟩
  · refine (State.requestSpace_granted (s := s.updStack vp (Stack.listing listed)) hfits).trans ?_
    rw [State.grantSpace_eq, hfixed]
    rfl
  · refine (State.requestSpace_held (s := s.updStack vp (Stack.listing listed)) hfull).trans ?_
    rw [State.holdStack_eq, hfixed]
    rfl

/-! ### Stack requests taken (R122, R137, R139, R140) -/

section
variable {s : State} {vp : Nat} {k : Stack}

theorem findStack_eq_none : s.findStack vp = none ↔ ∀ y ∈ s.stackTable, y.settings.vp ≠ vp := by
  simp [State.findStack]

theorem field_vp (h : vp < 4294967296) : field (leBytes 4 vp) 0 4 = vp := by
  rw [field_all (by simp), leNat_leBytes (by omega)]

theorem stkopenOwner_taken {p : List Byte} {k : StackSettings} (hread : readStackSettings p = some k)
    (hroom : s.stackTable.length < 8) (hnew : ∀ y ∈ s.stackTable, y.settings.vp ≠ k.vp) :
    stkopenOwner p s = takenOk { s with stackTable := s.stackTable ++ [Stack.new k] } := by
  unfold stkopenOwner
  rw [hread]
  dsimp only
  rw [if_neg (by simp only [Config.stackLimit]; omega), findStack_eq_none.mpr hnew]
  rfl

theorem stkcloseOwner_taken (hpos : 1 ≤ vp) (hvp : vp < 4294967296) (hfound : s.findStack vp = some k)
    (hopen : k.state = .opened) : stkcloseOwner (leBytes 4 vp) s =
      takenOk ((s.updStack vp fun y => { y with state := .closing }).completionTest vp) := by
  unfold stkcloseOwner
  rw [field_vp hvp, if_neg (by omega), hfound]
  exact if_pos hopen

theorem stkdropOwner_taken (hpos : 1 ≤ vp) (hvp : vp < 4294967296) (hfound : s.findStack vp = some k) :
    stkdropOwner (leBytes 4 vp) s = takenOk (s.discardStack k) := by
  unfold stkdropOwner
  rw [field_vp hvp, if_neg (by omega), hfound]

/-- The discard of a stack reads and changes nothing of the command port. -/
theorem State.discardStack_setCmd (s : State) (c : CommandPort) (k : Stack) :
    State.discardStack { s with cmd := c } k = { s.discardStack k with cmd := c } := by
  have hserve (x : State) : State.serve { x with cmd := c } = { x.serve with cmd := c } := x.serve_setCmd c
  have hsweeps : (State.discardSweeps { s with cmd := c } k.settings.vp).dropStack k.settings.vp =
      { (s.discardSweeps k.settings.vp).dropStack k.settings.vp with cmd := c } := by
    have h : State.discardSweeps { s with cmd := c } k.settings.vp = { s.discardSweeps k.settings.vp with cmd := c } :=
      foldl_discard_setCmd c _ s
    rw [h]
    rfl
  unfold State.discardStack
  cases k.state with
  | opened => exact hsweeps
  | closing => exact hsweeps
  | held =>
    dsimp only
    split
    · exact hserve ((s.leaveHeld k.settings.vp).dropStack k.settings.vp)
    · rfl
  | finalizing => exact hserve ((s.unreserve k.settings.vp).dropStack k.settings.vp)

end

/-- Settles O50: each stack request as its owner runs it, the command port apart. -/
theorem stackRequestsWhenTaken : Obligations.StackRequestsWhenTaken := by
  unfold Obligations.StackRequestsWhenTaken
  refine ⟨fun s ak k code hlawful hroom hnew hcode htaking => congrArg Host.Outcome.next ?opens, ?_⟩
  case opens =>
    exact State.take_ok htaking (by simp [payloadSuits, stkopenPayload, stackSettingsBytes])
      (stkopenOwner_taken (readStackSettings_payload k code hlawful hcode) hroom hnew) rfl
  intro s ak vp k hpos hvp hfound
  refine ⟨fun htaking hopen => congrArg Host.Outcome.next ?closes, fun htaking => ?drops⟩
  case closes =>
    have howner := stkcloseOwner_taken (s := s.dequeue) hpos hvp hfound hopen
    have htest := State.completionTest_setCmd (s.updStack vp fun y => { y with state := .closing }) s.dequeue.cmd vp
    refine (State.take_ok htaking (by simp [payloadSuits]) howner (State.completionTest_cmd _ _)).trans ?_
    exact congrArg (fun x : State => { x with cmd := s.cmd.taken { kind := 20#8, payload := leBytes 4 vp, ak := ak } .ok [] })
      htest
  case drops =>
    intro ev dropped unheld answered
    have hvpk : k.settings.vp = vp := (State.findStack_eq_some hfound).2
    have hev : ev = .next (answered (s.discardStack k)) := by
      have howner := stkdropOwner_taken (s := s.dequeue) hpos hvp hfound
      rw [show s.dequeue.discardStack k = { s.discardStack k with cmd := s.dequeue.cmd } from
        s.discardStack_setCmd s.dequeue.cmd k] at howner
      exact congrArg Host.Outcome.next (State.take_ok (t := { s.discardStack k with cmd := s.dequeue.cmd }) htaking
        (by simp [payloadSuits]) howner rfl)
    rw [hev]
    subst hvpk
    unfold State.discardStack
    refine ⟨fun hstate => congrArg (fun x => Host.Outcome.next (answered x)) ?sweeps, fun hstate hfirst => ?first,
      fun hstate hother => ?other, fun hstate => ?finalizing⟩
    case sweeps =>
      have hdiscard : s.discardSweeps k.settings.vp = (s.sweeps.filter fun e => e.vp == k.settings.vp).foldl
          (fun x e => State.post (x.withoutSweep e) (.swAbort e.tag e.vp e.number .discarded)) s := foldl_discard_eq _ s
      rw [← hdiscard]
      obtain h | h := hstate <;> rw [h] <;> rfl
    case first =>
      rw [hstate]
      exact congrArg (fun x => Host.Outcome.next (answered x)) (if_pos hfirst)
    case other =>
      rw [hstate]
      exact congrArg (fun x => Host.Outcome.next (answered x)) (if_neg hother)
    case finalizing =>
      rw [hstate]
      rfl

/-! ### Stack requests refused (R123, R137, R139, R142) -/

section
variable {s : State} {vp : Nat} {k : Stack}

theorem stkopenOwner_full {p : List Byte} (hread : readStackSettings p ≠ none) (hfull : 8 ≤ s.stackTable.length) :
    stkopenOwner p s = stkRefuse p s .full := by
  obtain ⟨k, hk⟩ := Option.ne_none_iff_exists'.mp hread
  unfold stkopenOwner
  rw [hk]
  exact if_pos hfull

theorem stkopenOwner_duplicate {p : List Byte} (hread : readStackSettings p ≠ none) (hroom : s.stackTable.length < 8)
    (hknown : ∃ y ∈ s.stackTable, y.settings.vp = field p 0 4) : stkopenOwner p s = stkRefuse p s .duplicate := by
  obtain ⟨k, hk⟩ := Option.ne_none_iff_exists'.mp hread
  have hfound : (s.findStack k.vp).isSome = true := by
    rw [readStackSettings_vp p k hk]
    simpa [State.findStack] using hknown
  unfold stkopenOwner
  rw [hk]
  dsimp only
  rw [if_neg (by simp only [Config.stackLimit]; omega), if_pos hfound]

theorem stkcloseOwner_zero : stkcloseOwner (leBytes 4 0) s = refuse s .range := rfl

theorem stkdropOwner_zero : stkdropOwner (leBytes 4 0) s = refuse s .range := rfl

theorem stkinfoOwner_zero : stkinfoOwner (leBytes 4 0) s = refuse s .range := rfl

theorem stkcloseOwner_noStack (hpos : 1 ≤ vp) (hvp : vp < 4294967296) (hnone : s.findStack vp = none) :
    stkcloseOwner (leBytes 4 vp) s = refuse s .noStack := by
  unfold stkcloseOwner
  rw [field_vp hvp, if_neg (by omega), hnone]

theorem stkdropOwner_noStack (hpos : 1 ≤ vp) (hvp : vp < 4294967296) (hnone : s.findStack vp = none) :
    stkdropOwner (leBytes 4 vp) s = refuse s .noStack := by
  unfold stkdropOwner
  rw [field_vp hvp, if_neg (by omega), hnone]

theorem stkinfoOwner_noStack (hpos : 1 ≤ vp) (hvp : vp < 4294967296) (hnone : s.findStack vp = none) :
    stkinfoOwner (leBytes 4 vp) s = refuse s .noStack := by
  unfold stkinfoOwner
  rw [field_vp hvp, if_neg (by omega), hnone]

theorem stkcloseOwner_state (hpos : 1 ≤ vp) (hvp : vp < 4294967296) (hfound : s.findStack vp = some k)
    (hstate : k.state ≠ .opened) : stkcloseOwner (leBytes 4 vp) s = refuse s .state := by
  unfold stkcloseOwner
  rw [field_vp hvp, if_neg (by omega), hfound]
  exact if_neg hstate

end

/-- Settles O51: the refusals of each owner, STKOPEN's with a notice of their own. -/
theorem stackRequestsRefusedInOrder : Obligations.StackRequestsRefusedInOrder := by
  unfold Obligations.StackRequestsRefusedInOrder
  refine ⟨?opens, ?others⟩
  case opens =>
    intro s ak p hlength htaking asked refused bad
    have hbad : readStackSettings p = none ↔ bad := readStackSettings_eq_none p
    have hrefused {res : Result} (hres : res ≠ .ok) (h : stkopenOwner p s.dequeue = stkRefuse p s.dequeue res) :
        exec (.stkopen ak p) s = refused res := by
      refine congrArg Host.Outcome.next ((State.take_fits htaking (by simp [payloadSuits, hlength])).trans ?_)
      rw [h]
      exact refuse_post hres
    refine ⟨fun h => hrefused (res := .range) nofun ?_,
      fun hgood hfull => hrefused nofun (stkopenOwner_full (mt hbad.mp hgood) hfull),
      fun hgood hroom hknown => hrefused nofun (stkopenOwner_duplicate (mt hbad.mp hgood) hroom hknown)⟩
    unfold stkopenOwner
    rw [hbad.mpr h]
  case others =>
    intro s i r vp hvp htaking hreq hpayload
    obtain ⟨kind, p, ak⟩ := r
    subst hpayload
    have hrefused {res : Result} (hsuits : payloadSuits kind (leBytes 4 vp) = true)
        (hknown : ∀ ak k p, i ≠ .unknownRequest ak k p) (hres : res ≠ .ok)
        (h : requestOwner { kind := kind, payload := leBytes 4 vp, ak := ak } s.dequeue = refuse s.dequeue res) :
        exec i s = .next (s.refusing { kind := kind, payload := leBytes 4 vp, ak := ak } res []) :=
      (exec_request hreq hknown s).trans (congrArg Host.Outcome.next (State.take_refused htaking hsuits hres h))
    have hfour : (leBytes 4 vp).length = 4 := leBytes_length 4 vp
    refine ⟨?_, ?_⟩
    · rintro (rfl | rfl | rfl) hknown
      · exact ⟨fun hzero => hrefused (by simp [payloadSuits]) hknown nofun (by subst hzero; exact stkcloseOwner_zero),
          fun hpos hnone => hrefused (by simp [payloadSuits]) hknown nofun
            (stkcloseOwner_noStack hpos hvp (findStack_eq_none.mpr hnone))⟩
      · exact ⟨fun hzero => hrefused (by simp [payloadSuits]) hknown nofun (by subst hzero; exact stkdropOwner_zero),
          fun hpos hnone => hrefused (by simp [payloadSuits]) hknown nofun
            (stkdropOwner_noStack hpos hvp (findStack_eq_none.mpr hnone))⟩
      · exact ⟨fun hzero => hrefused (by simp [payloadSuits]) hknown nofun (by subst hzero; exact stkinfoOwner_zero),
          fun hpos hnone => hrefused (by simp [payloadSuits]) hknown nofun
            (stkinfoOwner_noStack hpos hvp (findStack_eq_none.mpr hnone))⟩
    · rintro k rfl hknown hpos hfound hstate
      exact hrefused (by simp [payloadSuits]) hknown nofun (stkcloseOwner_state hpos hvp hfound hstate)

/-! ### The held order and the release of blocks (R150, R161) -/

section
variable {s : State} {vp : Nat} {rest : List Nat} {k : Stack}

theorem State.serve_readPosition (s : State) : s.serve.oq.readPosition = s.oq.readPosition := by
  obtain ⟨-, -, -, -, -, -, -, -, -, -, -, h, -⟩ := s.serve_frame
  exact h

theorem State.serve_nil (h : s.oq.heldOrder = []) : s.serve = s := by
  unfold State.serve
  rw [h]
  show { s with oq := { s.oq with heldOrder := [] } } = s
  rw [← h]

theorem State.serve_full (h : s.oq.heldOrder = vp :: rest) (hfound : s.findStack vp = some k)
    (hfull : s.oq.free < k.recordSize) : s.serve = s := by
  unfold State.serve
  rw [h]
  unfold State.serveHeld
  rw [hfound]
  refine (if_neg (Nat.not_le.mpr hfull)).trans ?_
  rw [← h]

theorem State.serve_fits (h : s.oq.heldOrder = vp :: rest) (hfound : s.findStack vp = some k)
    (hfits : k.recordSize ≤ s.oq.free) : s.serve = State.serve
      { s.grantSpace vp k.recordSize with oq := { (s.grantSpace vp k.recordSize).oq with heldOrder := rest } } := by
  have hserve : s.serve = State.serveHeld rest (s.grantSpace vp k.recordSize) := by
    unfold State.serve
    rw [h, State.serveHeld.eq_2, hfound]
    exact if_pos hfits
  exact hserve.trans (State.serveHeld_setHeld (s.grantSpace vp k.recordSize) rest rest).symm

/-- The answer of a release, by the state it leaves (R161). -/
theorem oqrelOwner_released {x : State} {r : OutRecord} {rest : List OutRecord} {position left : Nat} {short : Bool}
    (hrecords : s.oq.records = r :: rest) (hx : s.releaseBlock r rest = x) (hposition : x.oq.readPosition = position)
    (hleft : x.oq.records.length = left)
    (hshort : decide (s.oq.readPosition + s.oq.blockLength r < r.size) = short) :
    oqrelOwner s = {
      state := x.adoptBlockSize
      result := .ok
      payload := leBytes 4 r.number ++ leBytes 2 (s.oq.blockLength r) ++ leBytes 4 position ++ [flagByte !short] ++
        leBytes 4 left } := by
  subst hx hposition hleft hshort
  unfold oqrelOwner
  rw [hrecords]
  rfl

end

/-- Settles O52: one step of the service, and a release short of and at the record's end. -/
theorem heldStacksAreServedAndBlocksReleased : Obligations.HeldStacksAreServedAndBlocksReleased := by
  unfold Obligations.HeldStacksAreServedAndBlocksReleased
  refine ⟨fun s => State.serve_nil, ?_, ?_⟩
  · intro s vp rest k hheld hfound size
    exact ⟨fun hfull => State.serve_full hheld hfound hfull, fun hfits => State.serve_fits hheld hfound hfits⟩
  intro s htaking asked
  refine ⟨fun hempty => congrArg Host.Outcome.next ?empty, ?_⟩
  case empty =>
    refine State.take_refused htaking rfl nofun ?_
    unfold oqrelOwner
    rw [State.dequeue_oq, hempty]
    rfl
  intro r rest hrecords n answered
  refine ⟨fun hshort => congrArg Host.Outcome.next ?short, fun hend => congrArg Host.Outcome.next ?ending⟩
  case short =>
    have hrelease : s.dequeue.releaseBlock r rest =
        { s.dequeue with oq := { s.oq with readPosition := s.oq.readPosition + n } } := if_pos hshort
    exact State.take_ok htaking rfl
      (oqrelOwner_released (s := s.dequeue) hrecords hrelease rfl (congrArg List.length hrecords) (decide_eq_true hshort)) rfl
  case ending =>
    let x : State := { s with oq := { s.oq with records := rest, readPosition := 0 } }
    have hrelease : s.dequeue.releaseBlock r rest = { x.serve with cmd := s.dequeue.cmd } :=
      (if_neg (Nat.not_lt.mpr hend)).trans (x.serve_setCmd s.dequeue.cmd)
    exact State.take_ok (t := State.adoptBlockSize { x.serve with cmd := s.dequeue.cmd }) htaking rfl
      (oqrelOwner_released (s := s.dequeue) hrecords hrelease x.serve_readPosition (congrArg List.length x.serve_records)
        (decide_eq_false (Nat.not_lt.mpr hend))) rfl

/-! ### The finalize completion (R155) -/

/-- Settles O53: the record appended in place of the reservation, the stack's leaving, and STKDONE. -/
theorem finalizationsAppendTheirRecord : Obligations.FinalizationsAppendTheirRecord := by
  unfold Obligations.FinalizationsAppendTheirRecord
  refine ⟨fun s vp hnone => congrArg Host.Outcome.next ?_, ?_⟩
  · cases hfound : s.findStack vp with
    | none => rfl
    | some k => exact if_neg (hnone k hfound)
  intro s vp k hfound hstate n made base
  have hvp : k.settings.vp = vp := (State.findStack_eq_some hfound).2
  have hexec : exec (.finalizeCompletion vp) s = .next (s.finalize k) := by
    show execFinalizeCompletion vp s = _
    unfold execFinalizeCompletion
    rw [hfound]
    exact congrArg Host.Outcome.next (if_pos hstate)
  rw [hexec]
  subst hvp
  refine congrArg Host.Outcome.next ?_
  unfold State.finalize
  dsimp only
  rw [State.append_eq]
  by_cases hempty : s.oq.records = []
  · rw [if_pos (show (s.unreserve k.settings.vp).oq.records = [] from hempty), if_pos hempty, State.dropStack_post]
    rfl
  · rw [if_neg (show ¬ (s.unreserve k.settings.vp).oq.records = [] from hempty), if_neg hempty]
    rfl

end Sys2Proof.Machine
end
